-- ==== Sys2Proof/Word.lean ====
section
/-! DEFINITION. The widths of the machine's words (spec/00_scope.md R9, R10; spec/30_encoding.md R110;
spec/20_memory.md R70). All values are unsigned. -/

namespace Sys2Proof

/-- A byte: a frame byte, a command operand, an EC index or value. -/
abbrev Byte := BitVec 8

/-- The 64-bit command word (R110). -/
abbrev CmdWord := BitVec 64

/-- A word of the host register space (R70 (1)). -/
abbrev HostWord := BitVec 32

/-- A word address of the host register space (R70 (1)). -/
abbrev HostAddr := BitVec 8

/-- A port address of the EC port space (R70 (4), R76). -/
abbrev PortAddr := BitVec 16

/-- A settle delay in microseconds, the width of SETTLE_US (R45). -/
abbrev Micros := BitVec 16

end Sys2Proof
end

