-- ==== Sys2Proof/Syntax.lean ====
section
/-! DEFINITION. The commands (one constructor per row of spec/opcode_table.json), the assembler's lines
(spec/30_encoding.md R129, R130), and what the environment can do (spec/10_state.md R32). -/

namespace Sys2Proof

/-- The commands of the command port (spec/30_encoding.md R113). An operand field the opcode does not use
is not carried (R112); CFG.SETTLE's operand is the 16-bit value of fields B and A (R115). -/
inductive Instr where
  | frmZoned (zone mode red green blue brightness : Byte)
  | frmLegacy (mode red green blue brightness : Byte)
  | frmPerf (perf : Byte)
  | frmSend
  | cfgSettle (us : Micros)
  | ecBuild (target value : Byte)
  | ecExec (target value : Byte)
  | ecPerf (ecmode : Byte)
  | ecFan (enabled : Byte)
  | ecMaxon
  | ecMaxoff
  | reserved0
  | reserved6
  | reserved7
  | reservedE
  | reservedF
  deriving DecidableEq, Repr, Inhabited

/-- A transport's answer to a request, and the values of STATUS.CAUSE (spec/60_exceptions.md R264). -/
inductive Resp where
  | ok
  | ioError
  | permissionDenied
  | deviceAbsent
  deriving DecidableEq, Repr, Inhabited

/-- The two ports of the EC port space (spec/20_memory.md R76). -/
inductive Port where
  | index
  | data
  deriving DecidableEq, Repr, Inhabited

/-- Which dialect the lighting firmware accepts (spec/00_scope.md R7, spec/40_framer.md R159). -/
inductive Dialect where
  | legacy
  | zoned
  | both
  deriving DecidableEq, Repr, Inhabited

/-- One move of one agent (spec/10_state.md R32, spec/70_reset_and_hazards.md R300). -/
inductive Move where
  /-- HOST writes a command word to the command port (spec/20_memory.md R73). -/
  | issue (cmd : CmdWord)
  /-- HOST reads a word of the register space (R72). -/
  | read (addr : HostAddr)
  /-- BLOCK takes its next FSM step. -/
  | block
  /-- HIDT answers the outstanding HidWrite. -/
  | hidAnswer (resp : Resp)
  /-- PORTT answers the outstanding PortWrite. -/
  | portAnswer (resp : Resp)
  /-- A transport answers the `k`-th request a reset has abandoned (R300). -/
  | lateAnswer (k : Nat) (resp : Resp)
  /-- TIME emits a tick. -/
  | tick
  /-- FOREIGN performs a port write (R32, R90). -/
  | foreignWrite (port : Port) (byte : Byte) (resp : Resp)
  /-- The caller opens or closes the HID device handle, the input hid_open (R52). -/
  | setHidOpen (v : Bool)
  /-- The caller opens or closes the EC port resource, the input ec_open (R52). -/
  | setEcOpen (v : Bool)
  /-- The reset input (R300). -/
  | reset
  deriving DecidableEq, Repr, Inhabited

/-- The zone names of the assembler (R16, R129). -/
inductive ZoneName where
  | all
  | left
  | midLeft
  | midRight
  | right
  deriving DecidableEq, Repr

/-- The effect-mode names of the assembler (R16, R129). -/
inductive ModeName where
  | off
  | static
  | breathing
  | neon
  | rainbow
  | flow
  | wave
  deriving DecidableEq, Repr

/-- The performance-mode names, used by FRM.PERF and by EC.PERF with different values (R16, R129). -/
inductive PerfName where
  | office
  | balance
  | gaming
  deriving DecidableEq, Repr

/-- EC.FAN's two names (R129). -/
inductive FanName where
  | on
  | off
  deriving DecidableEq, Repr

/-- An assembler operand that may be a number or a name (R129). -/
inductive AsmArg (ν : Type) where
  | num (n : Nat)
  | name (x : ν)
  deriving DecidableEq, Repr

/-- One assembler line: the eleven forms of R129 and the four pseudo-instructions of R130. -/
inductive AsmLine where
  | frmZoned (zone : AsmArg ZoneName) (mode : AsmArg ModeName) (red green blue brightness : Nat)
  | frmLegacy (mode : AsmArg ModeName) (red green blue brightness : Nat)
  | frmPerf (perf : AsmArg PerfName)
  | frmSend
  | cfgSettle (us : Nat)
  | ecBuild (target value : Nat)
  | ecExec (target value : Nat)
  | ecPerf (ecmode : AsmArg PerfName)
  | ecFan (enabled : AsmArg FanName)
  | ecMaxon
  | ecMaxoff
  | frmAll (mode : AsmArg ModeName) (red green blue brightness : Nat)
  | ecFanOn
  | ecFanOff
  | ecRaw (target value : Nat)
  deriving DecidableEq, Repr

end Sys2Proof
end

