-- ==== Sys2Proof/Config.lean ====
section
/-! DEFINITION. The parameters of spec/00_scope.md R7, and the values the spec leaves open as constants
without a body: nothing can be proved of what they are. -/

namespace Sys2Proof.Config

/-- FRAME_LEN. -/
def frameLen : Nat := 65
/-- REPORT_ID. -/
def reportId : Byte := 0x06
/-- CKSUM_OFF. -/
def cksumOff : Nat := 63
/-- CKSUM_RANGE: the first and the last byte, both inclusive (spec/90_conflicts.md C1). -/
def cksumRange : Nat × Nat := (1, 62)
/-- SEQ_LEN. -/
def seqLen : Nat := 8
/-- TRIGGER_OPCODE. -/
def triggerOpcode : Byte := 0xA1
/-- PERF_ADDR. -/
def perfAddr : Byte := 0x40
/-- FAN_ADDR. -/
def fanAddr : Byte := 0x41
/-- SETTLE_DEFAULT_US. -/
def settleDefaultUs : Micros := 5000
/-- SETTLE_FLOOR_US. -/
def settleFloorUs : Micros := 1000
/-- SETTLE_MAX_US. -/
def settleMaxUs : Micros := 65535
/-- TICK_US: microseconds per tick. -/
def tickUs : Nat := 1
/-- CMD_WIDTH. -/
def cmdWidth : Nat := 64

/-- OPEN (spec/92_eei_decisions.md D31): where the platform's two port addresses come from. -/
opaque portPair : PortAddr × PortAddr

/-- INDEX_PORT. -/
def indexPort : PortAddr := portPair.1

/-- DATA_PORT: any address but INDEX_PORT (spec/20_memory.md R76). -/
def dataPort : PortAddr := if portPair.2 = portPair.1 then portPair.1 + 1 else portPair.2

/-- The address of a port (R76). -/
def portAddr : Port → PortAddr
  | .index => indexPort
  | .data => dataPort

/-- OPEN (D32): EC_LATENCY_US. State carries it (notes/assumptions/6.md). -/
opaque ecLatencyUs : Nat

/-- OPEN (D37): DEVICE_DIALECT. No rule of the block reads it (spec/40_framer.md R159). -/
opaque deviceDialect : Dialect

/-- Free value: the `n`-th move the environment and the scheduler choose when State places none
(spec/10_state.md R32, spec/60_exceptions.md R269; notes/assumptions/1.md). -/
opaque freeMove : Nat → Move

/-- Free value: STEP, SUBSEQ and NSUB in the phases where they are undefined (spec/10_state.md R49;
notes/assumptions/5.md). -/
opaque freePosition : Nat → BitVec 3 × BitVec 1 × BitVec 2

/-- Free value: the unknown bytes of EC_RAM in the `n`-th draw (spec/20_memory.md R81;
notes/assumptions/7.md). -/
opaque freeEcByte : Nat → Byte → Byte

/-- Free value: the EC latch while it is unknown (R81). -/
opaque freeEcLatch : Nat → Bool

/-- Free value: the EC's pending address and value while they are unknown (R81). -/
opaque freeEcPending : Nat → Byte × Byte

end Sys2Proof.Config
end

