-- ==== Sys2Proof/Machine/State.lean ====
section
/-! DEFINITION. The state of the machine: the block (spec/10_state.md R33), its inputs (R52), the event
history (spec/20_memory.md R93), the embedded controller (R53, R79 to R81), and the model's own fields that say
which agent moves next. -/

namespace Sys2Proof.Machine

/-- PHASE (spec/10_state.md R48). -/
inductive Phase where
  | idle
  | hidReq
  | hidWait
  | ecIdx
  | ecIdxWait
  | ecDat
  | ecDatWait
  | ecSettle
  deriving DecidableEq, Repr

/-- The error of the last accepted command (spec/60_exceptions.md R261, R262). -/
inductive ErrCode where
  | none
  | invalidArgument
  | deviceNotFound
  | ioError
  | registerWriteFailed
  deriving DecidableEq, Repr

/-- STATUS, one field per row of spec/10_state.md R35. The reserved bits have no storage. `cause` is `ok`,
code 0, where R41 says it holds 0. -/
structure Status where
  busy : Bool
  done : Bool
  frameValid : Bool
  seqValid : Bool
  err : ErrCode
  cause : Resp
  failPhase : BitVec 1
  failSubseq : BitVec 1
  failStep : BitVec 3
  failIndex : Byte
  lastOp : BitVec 4
  deriving DecidableEq, Repr

/-- One register write of the EC: an index and a value (spec/00_scope.md R15). -/
structure Pair where
  index : Byte
  value : Byte
  deriving DecidableEq, Repr

/-- FRAME[0..64] (spec/10_state.md R46). -/
abbrev Frame := Vector Byte 65

/-- SEQ[0..7] (R47). -/
abbrev Seq := Vector Pair 8

/-- A request to a transport (spec/00_scope.md R12). -/
inductive Request where
  | hid (frame : Frame)
  | port (port : Port) (byte : Byte)
  deriving DecidableEq, Repr

/-- Who wrote a port (spec/20_memory.md R93). -/
inductive Writer where
  | block
  | foreign
  deriving DecidableEq, Repr

/-- An event of the history (R93). -/
inductive Event where
  | accept (cmd : CmdWord)
  | hidWrite (frame : Frame) (resp : Resp)
  | portWrite (who : Writer) (port : Port) (byte : Byte) (resp : Resp)
  | tick
  | reset
  deriving DecidableEq, Repr

/-- The known bytes of EC_RAM: (address, byte), addresses strictly rising. An address not listed is unknown
(spec/20_memory.md R81). -/
abbrev Memory := List Host.Cell

/-- How far the register write in progress at the EC has come (spec/20_memory.md R77). -/
inductive Half where
  /-- No register write is in progress. -/
  | none
  /-- The index-port write is issued. -/
  | indexIssued
  /-- The index-port write of this index is answered OK. -/
  | indexDone (index : Byte)
  /-- The data-port write to this index is issued. -/
  | dataIssued (index : Byte)
  deriving DecidableEq, Repr

/-- The embedded controller (spec/10_state.md R53), as far as spec/20_memory.md R79 to R81 let it be known. -/
structure Ec where
  /-- The bytes of EC_RAM that are known, as the last commit left them. -/
  ram : Memory
  /-- The draw that the unknown bytes hold. -/
  ramDraw : Nat
  /-- How many draws the EC has taken. -/
  draws : Nat
  /-- The latch; `none` is unknown. -/
  latch : Option Bool
  /-- The pending address; `none` is unknown. -/
  pendAddr : Option Byte
  /-- The pending value; `none` is unknown. -/
  pendVal : Option Byte
  /-- Who writes the delivery in progress. -/
  owner : Writer
  /-- The register writes of the delivery in progress, newest first. -/
  pairs : List Pair
  /-- The register write in progress. -/
  half : Half
  /-- Ticks recorded since the newest pair's data write was answered. -/
  ticks : Nat
  /-- Register writes were cut off, and no clean delivery has ended since. -/
  stale : Bool
  /-- EC_LATENCY_US: fixed for the machine, never written. -/
  latencyUs : Nat
  deriving DecidableEq, Repr

structure State where
  status : Status
  settleUs : Micros
  frame : Frame
  seq : Seq
  phase : Phase
  stepIx : BitVec 3
  subseq : BitVec 1
  nsub : BitVec 2
  pendT : Byte
  pendV : Byte
  settleCnt : BitVec 17
  outstanding : Option Request
  /-- Requests a reset abandoned that no answer has come for yet, oldest first (R300). -/
  abandoned : List Request
  hidOpen : Bool
  ecOpen : Bool
  /-- The event history, newest first (R93). -/
  history : List Event
  ec : Ec
  /-- The model's own: the moves to come, first first (notes/assumptions/1.md). -/
  sched : List Move
  /-- The model's own: how many free values the block and the scheduler have drawn. -/
  draws : Nat
  deriving DecidableEq, Repr

/-- No step of this machine faults: the block has no traps, and its errors are result values in STATUS
(spec/60_exceptions.md R260). Nobody raises a fault, and no case is left for one: safe. -/
inductive Fault where
  deriving DecidableEq, Repr

/-- The refusals. Every command has its meaning, so no step answers with one. -/
inductive Refusal where
  /-- Raised by an arm of `exec` whose command has no meaning yet; no arm is left so. Safe: it proves nothing. -/
  | notModelled (mnemonic : String)
  deriving DecidableEq, Repr

/-- STATUS after reset (spec/10_state.md R55). -/
def Status.reset : Status where
  busy := false
  done := false
  frameValid := false
  seqValid := false
  err := .none
  cause := .ok
  failPhase := 0
  failSubseq := 0
  failStep := 0
  failIndex := 0
  lastOp := 0

/-- The EC at power-up: all of it unknown (spec/70_reset_and_hazards.md R301). -/
def Ec.powerUp : Ec where
  ram := []
  ramDraw := 0
  draws := 0
  latch := none
  pendAddr := none
  pendVal := none
  owner := .foreign
  pairs := []
  half := .none
  ticks := 0
  stale := false
  latencyUs := Config.ecLatencyUs

/-- The machine right after the power-up reset (spec/10_state.md R55, spec/70_reset_and_hazards.md R301). -/
def State.reset : State where
  status := Status.reset
  settleUs := Config.settleDefaultUs
  frame := Vector.replicate 65 0x00
  seq := Vector.replicate 8 ⟨0x00, 0x00⟩
  phase := .idle
  stepIx := 0
  subseq := 0
  nsub := 1
  pendT := 0
  pendV := 0
  settleCnt := 0
  outstanding := none
  abandoned := []
  hidOpen := false
  ecOpen := false
  history := []
  ec := Ec.powerUp
  sched := []
  draws := 0

end Sys2Proof.Machine
end

