-- ==== Sys2Proof/Machine/Operands.lean ====
section
/-! DEFINITION. The operand domains checked at execution (spec/30_encoding.md R114), the zone table and the
byte-1 packing (R120 to R124). -/

namespace Sys2Proof.Machine

/-- The zone table: (commandNibble, offsetNibble) (R120). A value without a row is no zone. -/
def zoneRow (zone : Byte) : Option (Byte × Byte) :=
  match zone.toNat with
  | 0 => some (0x1, 0x0)
  | 1 => some (0x6, 0x0)
  | 2 => some (0x6, 0x4)
  | 3 => some (0x7, 0x0)
  | 4 => some (0x7, 0x4)
  | _ => none

/-- mode ∈ 0..6 (R114, R121). -/
def modeOk (mode : Byte) : Bool := decide (mode.toNat ≤ 6)

/-- perf byte ∈ {0x40, 0x41, 0x42} (R114). -/
def perfOk (perf : Byte) : Bool := decide (perf = 0x40 ∨ perf = 0x41 ∨ perf = 0x42)

/-- ecmode ∈ {0, 1, 2} (R114). -/
def ecmodeOk (ecmode : Byte) : Bool := decide (ecmode.toNat ≤ 2)

/-- enabled ∈ {0, 1} (R114). -/
def enabledOk (enabled : Byte) : Bool := decide (enabled.toNat ≤ 1)

/-- The settle value is not below SETTLE_FLOOR_US (R114, spec/41_sequencer.md R202). -/
def settleOk (us : Micros) : Bool := decide (Config.settleFloorUs.toNat ≤ us.toNat)

/-- Zoned byte 1: the offset nibble is OR-combined with the mode, never added (R122). -/
def zonedByte1 (row : Byte × Byte) (mode : Byte) : Byte :=
  (row.1 <<< 4) ||| ((row.2 ||| mode) &&& 0xF)

/-- Legacy byte 1 (R123). -/
def legacyByte1 (mode : Byte) : Byte := 0x10 ||| mode

/-- `dataLength` of the two colour forms (R125). -/
def colourLength : Byte := 0x04

end Sys2Proof.Machine
end

