-- ==== Sys2Proof/WellFormed.lean ====
section
/-! DEFINITION. Which commands are legal: the operand domains of spec/30_encoding.md R114 and the reserved
opcodes of R134. An illegal command is encodable and decodes; it raises InvalidArgument when it is executed.
Also the number ranges of an assembler line (R129). -/

namespace Sys2Proof

/-- Every operand of the command lies in its domain and the opcode is not reserved (R114, R134). -/
def Instr.wellFormed : Instr → Bool
  | .frmZoned zone mode _ _ _ _ => decide (zone.toNat ≤ 4) && decide (mode.toNat ≤ 6)
  | .frmLegacy mode _ _ _ _ => decide (mode.toNat ≤ 6)
  | .frmPerf perf => decide (perf = 0x40 ∨ perf = 0x41 ∨ perf = 0x42)
  | .frmSend => true
  | .cfgSettle us => decide (1000 ≤ us.toNat)
  | .ecBuild _ _ => true
  | .ecExec _ _ => true
  | .ecPerf ecmode => decide (ecmode.toNat ≤ 2)
  | .ecFan enabled => decide (enabled.toNat ≤ 1)
  | .ecMaxon => true
  | .ecMaxoff => true
  | .reserved0 => false
  | .reserved6 => false
  | .reserved7 => false
  | .reservedE => false
  | .reservedF => false

/-- A number fits a byte field (R129). -/
def AsmArg.inByte {ν : Type} : AsmArg ν → Bool
  | .num n => decide (n < 256)
  | .name _ => true

/-- Every number of an assembler line is in the range R129 gives it: 0 to 255 per byte field, 0 to 65535
for CFG.SETTLE. Out-of-domain numbers within these ranges are accepted. -/
def AsmLine.wellFormed : AsmLine → Bool
  | .frmZoned zone mode r g b bri =>
      zone.inByte && mode.inByte && decide (r < 256) && decide (g < 256) && decide (b < 256) && decide (bri < 256)
  | .frmLegacy mode r g b bri =>
      mode.inByte && decide (r < 256) && decide (g < 256) && decide (b < 256) && decide (bri < 256)
  | .frmPerf perf => perf.inByte
  | .frmSend => true
  | .cfgSettle us => decide (us < 65536)
  | .ecBuild t v => decide (t < 256) && decide (v < 256)
  | .ecExec t v => decide (t < 256) && decide (v < 256)
  | .ecPerf ecmode => ecmode.inByte
  | .ecFan enabled => enabled.inByte
  | .ecMaxon => true
  | .ecMaxoff => true
  | .frmAll mode r g b bri =>
      mode.inByte && decide (r < 256) && decide (g < 256) && decide (b < 256) && decide (bri < 256)
  | .ecFanOn => true
  | .ecFanOff => true
  | .ecRaw t v => decide (t < 256) && decide (v < 256)

end Sys2Proof
end

