-- ==== Sys2Proof/Decode.lean ====
section
/-! DEFINITION. The command word's fields, its decoder and its encoder (spec/30_encoding.md R110 to R115,
R133), the mask and match of each row of spec/opcode_table.json, and the assembler (R129, R130). -/

namespace Sys2Proof

/-- OP, bits 3:0 (R110). -/
def CmdWord.op (w : CmdWord) : BitVec 4 := w.extractLsb' 0 4
/-- RSV0, bits 7:4 (R110). -/
def CmdWord.rsv0 (w : CmdWord) : BitVec 4 := w.extractLsb' 4 4
/-- Field A, bits 15:8 (R110). -/
def CmdWord.fieldA (w : CmdWord) : Byte := w.extractLsb' 8 8
/-- Field B, bits 23:16 (R110). -/
def CmdWord.fieldB (w : CmdWord) : Byte := w.extractLsb' 16 8
/-- Field C, bits 31:24 (R110). -/
def CmdWord.fieldC (w : CmdWord) : Byte := w.extractLsb' 24 8
/-- Field D, bits 39:32 (R110). -/
def CmdWord.fieldD (w : CmdWord) : Byte := w.extractLsb' 32 8
/-- Field E, bits 47:40 (R110). -/
def CmdWord.fieldE (w : CmdWord) : Byte := w.extractLsb' 40 8
/-- Field F, bits 55:48 (R110). -/
def CmdWord.fieldF (w : CmdWord) : Byte := w.extractLsb' 48 8
/-- RSV1, bits 63:56 (R110). -/
def CmdWord.rsv1 (w : CmdWord) : Byte := w.extractLsb' 56 8

/-- A reserved field of the word is not zero (R111). -/
def CmdWord.hasReservedBits (w : CmdWord) : Bool := decide (w.rsv0 ≠ 0 ∨ w.rsv1 ≠ 0)

/-- CFG.SETTLE's operand, `B<<8 | A`: field A is the low byte (R115). -/
def settleOperand (b a : Byte) : Micros := b.setWidth 16 <<< 8 ||| a.setWidth 16

/-- Why a command word is no instruction: a reserved bit is set in a word of a valid opcode (R111). The
acceptance step raises InvalidArgument for it (R133); the opcode decides whether R161 applies. -/
inductive DecodeReject where
  | reservedField (op : BitVec 4)
  deriving DecidableEq, Repr

/-- The decoder of R133. A reserved opcode is recognised whatever the other fields hold, as the masks of its
rows in the opcode table say; both ways of rejecting such a word have the same effect (R134, R268). -/
def decode (w : CmdWord) : Except DecodeReject Instr :=
  match w.op.toNat with
  | 0x0 => .ok .reserved0
  | 0x6 => .ok .reserved6
  | 0x7 => .ok .reserved7
  | 0xE => .ok .reservedE
  | 0xF => .ok .reservedF
  | n =>
    if w.hasReservedBits then .error (.reservedField w.op)
    else
      match n with
      | 0x1 => .ok (.frmZoned w.fieldA w.fieldB w.fieldC w.fieldD w.fieldE w.fieldF)
      | 0x2 => .ok (.frmLegacy w.fieldB w.fieldC w.fieldD w.fieldE w.fieldF)
      | 0x3 => .ok (.frmPerf w.fieldA)
      | 0x4 => .ok .frmSend
      | 0x5 => .ok (.cfgSettle (settleOperand w.fieldB w.fieldA))
      | 0x8 => .ok (.ecBuild w.fieldA w.fieldB)
      | 0x9 => .ok (.ecExec w.fieldA w.fieldB)
      | 0xA => .ok (.ecPerf w.fieldA)
      | 0xB => .ok (.ecFan w.fieldA)
      | 0xC => .ok .ecMaxon
      | _ => .ok .ecMaxoff

/-- A command word from its opcode and operand fields, reserved fields zero: R110's
`OP | A<<8 | B<<16 | C<<24 | D<<32 | E<<40 | F<<48` (R129). -/
def cmdWord (op : BitVec 4) (a b c d e f : Byte) : CmdWord :=
  op.setWidth 64 ||| a.setWidth 64 <<< 8 ||| b.setWidth 64 <<< 16 ||| c.setWidth 64 <<< 24
    ||| d.setWidth 64 <<< 32 ||| e.setWidth 64 <<< 40 ||| f.setWidth 64 <<< 48

/-- The opcode of a command (R113). -/
def Instr.opcode : Instr → BitVec 4
  | .frmZoned .. => 0x1
  | .frmLegacy .. => 0x2
  | .frmPerf _ => 0x3
  | .frmSend => 0x4
  | .cfgSettle _ => 0x5
  | .ecBuild _ _ => 0x8
  | .ecExec _ _ => 0x9
  | .ecPerf _ => 0xA
  | .ecFan _ => 0xB
  | .ecMaxon => 0xC
  | .ecMaxoff => 0xD
  | .reserved0 => 0x0
  | .reserved6 => 0x6
  | .reserved7 => 0x7
  | .reservedE => 0xE
  | .reservedF => 0xF

/-- The encoder: unused operand fields and reserved fields are 0 (R113, R129). -/
def encode (i : Instr) : CmdWord :=
  match i with
  | .frmZoned zone mode r g b bri => cmdWord i.opcode zone mode r g b bri
  | .frmLegacy mode r g b bri => cmdWord i.opcode 0 mode r g b bri
  | .frmPerf perf => cmdWord i.opcode perf 0 0 0 0 0
  | .frmSend => cmdWord i.opcode 0 0 0 0 0 0
  | .cfgSettle us => cmdWord i.opcode (us.extractLsb' 0 8) (us.extractLsb' 8 8) 0 0 0 0
  | .ecBuild t v => cmdWord i.opcode t v 0 0 0 0
  | .ecExec t v => cmdWord i.opcode t v 0 0 0 0
  | .ecPerf m => cmdWord i.opcode m 0 0 0 0 0
  | .ecFan en => cmdWord i.opcode en 0 0 0 0 0
  | .ecMaxon => cmdWord i.opcode 0 0 0 0 0 0
  | .ecMaxoff => cmdWord i.opcode 0 0 0 0 0 0
  | .reserved0 => cmdWord i.opcode 0 0 0 0 0 0
  | .reserved6 => cmdWord i.opcode 0 0 0 0 0 0
  | .reserved7 => cmdWord i.opcode 0 0 0 0 0 0
  | .reservedE => cmdWord i.opcode 0 0 0 0 0 0
  | .reservedF => cmdWord i.opcode 0 0 0 0 0 0

/-- The mask of the command's row in spec/opcode_table.json: OP and both reserved fields for a valid
opcode (R113), OP alone for a reserved one. -/
def Instr.rowMask : Instr → CmdWord
  | .reserved0 => 0x000000000000000F
  | .reserved6 => 0x000000000000000F
  | .reserved7 => 0x000000000000000F
  | .reservedE => 0x000000000000000F
  | .reservedF => 0x000000000000000F
  | .frmZoned .. => 0xFF000000000000FF
  | .frmLegacy .. => 0xFF000000000000FF
  | .frmPerf _ => 0xFF000000000000FF
  | .frmSend => 0xFF000000000000FF
  | .cfgSettle _ => 0xFF000000000000FF
  | .ecBuild _ _ => 0xFF000000000000FF
  | .ecExec _ _ => 0xFF000000000000FF
  | .ecPerf _ => 0xFF000000000000FF
  | .ecFan _ => 0xFF000000000000FF
  | .ecMaxon => 0xFF000000000000FF
  | .ecMaxoff => 0xFF000000000000FF

/-- The match value of the command's row in spec/opcode_table.json: its opcode. -/
def Instr.rowMatch (i : Instr) : CmdWord := i.opcode.setWidth 64

/-- What the decoder reads from an instruction word numbered as spec/opcode_table.json numbers it. -/
def decodeTableWord (nbits w : Nat) : Option Instr :=
  match decode (BitVec.ofNat 64 (w % 2 ^ nbits)) with
  | .ok i => some i
  | .error _ => none

/-! The assembler. -/

/-- A zone name's value (R16, R129). -/
def ZoneName.value : ZoneName → Nat
  | .all => 0
  | .left => 1
  | .midLeft => 2
  | .midRight => 3
  | .right => 4

/-- A mode name's value (R16, R129). -/
def ModeName.value : ModeName → Nat
  | .off => 0
  | .static => 1
  | .breathing => 2
  | .neon => 3
  | .rainbow => 4
  | .flow => 5
  | .wave => 6

/-- A performance-mode name's value for FRM.PERF, the HID channel (R16, R129). -/
def PerfName.hidValue : PerfName → Nat
  | .office => 0x40
  | .balance => 0x41
  | .gaming => 0x42

/-- A performance-mode name's value for EC.PERF, the EC channel (R16, R129). -/
def PerfName.ecValue : PerfName → Nat
  | .office => 0
  | .balance => 1
  | .gaming => 2

/-- EC.FAN's names (R129). -/
def FanName.value : FanName → Nat
  | .on => 1
  | .off => 0

/-- The byte an operand stands for. -/
def AsmArg.byte {ν : Type} (value : ν → Nat) : AsmArg ν → Byte
  | .num n => BitVec.ofNat 8 n
  | .name x => BitVec.ofNat 8 (value x)

/-- The command an assembler line stands for; the pseudo-instructions expand as R130 says. -/
def AsmLine.instr : AsmLine → Instr
  | .frmZoned zone mode r g b bri =>
      .frmZoned (zone.byte ZoneName.value) (mode.byte ModeName.value)
        (BitVec.ofNat 8 r) (BitVec.ofNat 8 g) (BitVec.ofNat 8 b) (BitVec.ofNat 8 bri)
  | .frmLegacy mode r g b bri =>
      .frmLegacy (mode.byte ModeName.value)
        (BitVec.ofNat 8 r) (BitVec.ofNat 8 g) (BitVec.ofNat 8 b) (BitVec.ofNat 8 bri)
  | .frmPerf perf => .frmPerf (perf.byte PerfName.hidValue)
  | .frmSend => .frmSend
  | .cfgSettle us => .cfgSettle (BitVec.ofNat 16 us)
  | .ecBuild t v => .ecBuild (BitVec.ofNat 8 t) (BitVec.ofNat 8 v)
  | .ecExec t v => .ecExec (BitVec.ofNat 8 t) (BitVec.ofNat 8 v)
  | .ecPerf m => .ecPerf (m.byte PerfName.ecValue)
  | .ecFan en => .ecFan (en.byte FanName.value)
  | .ecMaxon => .ecMaxon
  | .ecMaxoff => .ecMaxoff
  | .frmAll mode r g b bri =>
      .frmZoned (BitVec.ofNat 8 ZoneName.all.value) (mode.byte ModeName.value)
        (BitVec.ofNat 8 r) (BitVec.ofNat 8 g) (BitVec.ofNat 8 b) (BitVec.ofNat 8 bri)
  | .ecFanOn => .ecFan 1
  | .ecFanOff => .ecFan 0
  | .ecRaw t v => .ecExec (BitVec.ofNat 8 t) (BitVec.ofNat 8 v)

/-- The command word of a line whose numbers are in range; the assembler refuses a number that is not. -/
def AsmLine.assemble (l : AsmLine) : Option CmdWord :=
  if l.wellFormed then some (encode l.instr) else none

end Sys2Proof
end

