-- ==== Sys2Proof/Machine/Memory.lean ====
section
/-! DEFINITION. The known part of EC_RAM as a list of (address, byte) pairs in one canonical form
(spec/10_state.md R53, spec/20_memory.md R81): addresses rise strictly and lie in the 8-bit space, and an
address not listed is unknown, which no entry is. -/

namespace Sys2Proof.Machine

/-- What an address that is not listed reads as: unknown (R81). -/
def Memory.unlisted : Option Byte := none

/-- The known byte at an address. -/
def Memory.read (m : Memory) (a : Byte) : Option Byte :=
  match m with
  | [] => Memory.unlisted
  | c :: rest => if c.1 = a.toNat then some c.2 else Memory.read rest a

/-- The memory with `b` known at address `a`, every other address as before. -/
def Memory.write (m : Memory) (a b : Byte) : Memory :=
  match m with
  | [] => [(a.toNat, b)]
  | c :: rest =>
    if a.toNat < c.1 then (a.toNat, b) :: c :: rest
    else if a.toNat = c.1 then (a.toNat, b) :: rest
    else c :: Memory.write rest a b

/-- Every address of the list is above `lo`, the addresses rise strictly, and each is below 256. -/
def Memory.risesFrom (lo : Nat) : Memory → Bool
  | [] => true
  | c :: rest => decide (lo ≤ c.1) && decide (c.1 < 256) && Memory.risesFrom (c.1 + 1) rest

/-- The canonical form. -/
def Memory.wf (m : Memory) : Bool := Memory.risesFrom 0 m

end Sys2Proof.Machine
end

