-- ==== Sys2Proof/Machine/Ec.lean ====
section
/-! DEFINITION. The embedded controller's contract (spec/20_memory.md R77 to R82): how port writes and ticks
make a delivery, what a delivery that ends does to EC_RAM, and when the EC state becomes unknown. -/

namespace Sys2Proof.Machine

/-- `buildSeq(t, v)`: the eight register writes (spec/30_encoding.md R127, spec/41_sequencer.md R200). -/
def buildSeq (t v : Byte) : Seq :=
  #v[⟨0x94, 0x00⟩, ⟨0x91, 0x00⟩, ⟨0x92, 0x00⟩, ⟨0x92, 0x01⟩, ⟨0x90, 0x00⟩, ⟨0x91, t⟩, ⟨0xA0, v⟩,
    ⟨0x93, Config.triggerOpcode⟩]

/-- The trigger write (R15, R78). -/
def triggerPair : Pair := ⟨0x93, Config.triggerOpcode⟩

/-- The target and value of a delivery whose last eight register writes (newest first) are exactly
`buildSeq(t, v)` (R79 (a)). -/
def exactDelivery (newestFirst : List Pair) : Option (Byte × Byte) :=
  match newestFirst with
  | _ :: value :: target :: _ =>
    if newestFirst.take 8 = (buildSeq target.value value.value).toList.reverse then
      some (target.value, value.value)
    else none
  | _ => none

/-- The latch was cycled: a write of 1 to index 0x92 came after a write of 0 to it (R80). -/
def latchCycled (newestFirst : List Pair) : Bool :=
  match newestFirst with
  | [] => false
  | p :: older => (decide (p = ⟨0x92, 0x01⟩) && older.contains ⟨0x92, 0x00⟩) || latchCycled older

/-- A delivery is in progress: a register write of it is made or begun. -/
def Ec.inProgress (e : Ec) : Bool := !(e.pairs.isEmpty && decide (e.half = .none))

/-- The whole EC state becomes unknown: a new draw for every byte, the latch and the pending pair (R81). What
was being delivered is cut off. -/
def Ec.forget (e : Ec) : Ec :=
  { e with
    ram := [], ramDraw := e.draws + 1, draws := e.draws + 1, latch := none, pendAddr := none, pendVal := none,
    pairs := [], half := .none, ticks := 0, stale := true }

/-- The register writes made so far meet R79 (b) and (c), and no cycle of the latch is among them, so EC_RAM is as the
last commit left it (R80; notes/assumptions/10.md). True of an EC to which nothing is being delivered. -/
def Ec.settled (e : Ec) : Bool :=
  !e.inProgress ||
    (decide (e.half = .none) && decide (e.latencyUs + 1 ≤ e.ticks) && !latchCycled e.pairs && !e.stale)

/-- An index-port write is issued. It needs the last register write complete and at least EC_LATENCY_US + 1 ticks
since (R79 (b), (c)); else the EC state is unknown (R80, R81) and a new delivery begins here. The delivery goes on
where the same agent writes it. Another agent begins a delivery of its own, before which the old one has left EC_RAM
unchanged or the EC state unknown (R80; notes/assumptions/8.md, 10.md). -/
def Ec.issueIndex (who : Writer) (e : Ec) : Ec :=
  let e' :=
    if e.inProgress && !(decide (e.half = .none) && decide (e.latencyUs + 1 ≤ e.ticks)) then e.forget
    else if e.owner = who then e
    else if e.settled then { e with pairs := [] }
    else e.forget
  { e' with owner := who, half := .indexIssued, draws := e'.draws + 1 }

/-- The index-port write is answered OK. -/
def Ec.indexOk (who : Writer) (index : Byte) (e : Ec) : Ec :=
  if e.half = .indexIssued ∧ e.owner = who then { e with half := .indexDone index } else e.forget

/-- A data-port write is issued. -/
def Ec.issueData (who : Writer) (e : Ec) : Ec :=
  match e.half with
  | .indexDone i => if e.owner = who then { e with half := .dataIssued i } else e.forget
  | _ => e.forget

/-- A known latch after a register write: index 0x92 sets it (R53, R127; notes/assumptions/15.md). -/
def latchAfter (p : Pair) (latch : Bool) : Option Bool :=
  if p.index = 0x92 then
    if p.value = 0x00 then some false else if p.value = 0x01 then some true else none
  else some latch

/-- A register write is complete. It moves the latch and the pending pair where they are known (R82); where they are
unknown they stay so until a clean delivery (R81). The gap is counted from here. -/
def Ec.pairDone (p : Pair) (e : Ec) : Ec :=
  { e with
    pairs := p :: e.pairs, half := .none, ticks := 0,
    latch := e.latch.bind (latchAfter p),
    pendAddr := e.pendAddr.map fun a => if p.index = 0x91 then p.value else a,
    pendVal := e.pendVal.map fun v => if p.index = 0xA0 then p.value else v }

/-- The data-port write is answered OK. -/
def Ec.dataOk (who : Writer) (value : Byte) (e : Ec) : Ec :=
  match e.half with
  | .dataIssued i => if e.owner = who then e.pairDone ⟨i, value⟩ else e.forget
  | _ => e.forget

/-- A clean delivery ends: `EC_RAM[t] = v`, and no other byte changes (R79). Where a cycle of the latch came before it in
the same agent's register writes, those were a delivery that makes the EC state unknown first (R80, R81). The latch and
the pending pair are left as the eight register writes set them: that the trigger write and the commit do not move them
is the model's choice, on which the spec is silent (notes/assumptions/15.md). -/
def Ec.commit (t v : Byte) (e : Ec) : Ec :=
  let e' := if latchCycled (e.pairs.drop 8) then e.forget else e
  { e' with
    ram := Memory.write e'.ram t v, pairs := [], stale := false,
    latch := some true, pendAddr := some t, pendVal := some v }

/-- What a delivery does once the time after its trigger write has passed. A clean one commits (R79). One that is not
exact leaves EC_RAM unchanged where the latch was not cycled, and makes the EC state unknown otherwise (R80). -/
def Ec.deliveryEnds (e : Ec) : Ec :=
  match exactDelivery e.pairs with
  | some (t, v) => e.commit t v
  | none => if e.stale || latchCycled e.pairs then e.forget else e

/-- The newest register write is the trigger write, and no other has begun. -/
def Ec.triggered (e : Ec) : Bool := decide (e.half = .none) && decide (e.pairs.head? = some triggerPair)

/-- A tick (R79 (b)): the gap grows, and a triggered delivery has its effect once EC_LATENCY_US + 1 ticks have passed. -/
def Ec.tick (e : Ec) : Ec :=
  let e' := { e with ticks := e.ticks + 1 }
  if e'.triggered && decide (e'.latencyUs + 1 ≤ e'.ticks) then e'.deliveryEnds else e'

/-- A whole port write by an agent other than the block, while no EC command runs: it makes a delivery of its
own (R79, R80, R305). A write that fails makes the EC state unknown (R81). -/
def Ec.foreignWrite (port : Port) (byte : Byte) (resp : Resp) (e : Ec) : Ec :=
  if resp = .ok then
    match port with
    | .index => (e.issueIndex .foreign).indexOk .foreign byte
    | .data => (e.issueData .foreign).dataOk .foreign byte
  else e.forget

/-- The byte of EC_RAM at an address, where it is known. While what is being delivered may have changed EC_RAM nothing is
claimed (R80; notes/assumptions/11.md). -/
def Ec.known (e : Ec) (a : Byte) : Option Byte :=
  if e.settled then Memory.read e.ram a else Memory.unlisted

/-- The byte of EC_RAM at an address: known, or a free value (R81). -/
def Ec.byteAt (e : Ec) (a : Byte) : Byte :=
  match e.known a with
  | some b => b
  | none => Config.freeEcByte (if e.settled then e.ramDraw else e.draws) a

/-- The latch: known, or a free value (R81). -/
def Ec.latchValue (e : Ec) : Bool :=
  (if e.settled then e.latch else none).getD (Config.freeEcLatch e.draws)

/-- The pending address and value: known, or free values (R81). -/
def Ec.pendingPair (e : Ec) : Byte × Byte :=
  ((if e.settled then e.pendAddr else none).getD (Config.freeEcPending e.draws).1,
    (if e.settled then e.pendVal else none).getD (Config.freeEcPending e.draws).2)

end Sys2Proof.Machine
end

