-- ==== Sys2Proof/Machine/Ops.lean ====
section
/-! DEFINITION. The shared operations of the block: recording an event, accepting a command
(spec/20_memory.md R73), raising an error (spec/60_exceptions.md R270), committing a frame
(spec/40_framer.md R150 to R152, R161), filling SEQ and starting, failing and completing a sequence
(spec/41_sequencer.md R201, R209, R216 to R218). -/

namespace Sys2Proof.Machine

/-- An event joins the history (spec/20_memory.md R93). -/
def record (e : Event) (s : State) : State := { s with history := e :: s.history }

/-- The effects of acceptance before dispatch (R73, R43). -/
def accept (w : CmdWord) (s : State) : State :=
  record (.accept w)
    { s with
      status := { s.status with
        lastOp := w.op, done := false, err := .none, cause := .ok,
        failPhase := 0, failSubseq := 0, failStep := 0, failIndex := 0 } }

/-- `raise E(cause)`: the one way a command ends in an error (spec/60_exceptions.md R270). The FAIL_* fields
are left alone. -/
def raise (e : ErrCode) (cause : Resp) (s : State) : State :=
  { s with
    status := { s.status with err := e, cause := cause, done := false, busy := false }
    phase := .idle }

/-- `raise InvalidArgument`; CAUSE stays 0 (R263). -/
def raiseInvalid (s : State) : State := raise .invalidArgument .ok s

/-- A failed framer build: InvalidArgument, and FRAME_VALID is cleared while FRAME keeps its bytes
(spec/40_framer.md R161). -/
def failBuild (s : State) : State :=
  raiseInvalid { s with status := { s.status with frameValid := false } }

/-- A command that ends in its acceptance step has succeeded. -/
def succeed (s : State) : State := { s with status := { s.status with done := true } }

/-! Frames. -/

/-- The checksum trailer: the exact sum of bytes 1..62, modulo 256 (R150). -/
def cksum (f : Frame) : Byte :=
  BitVec.ofNat 8 (((f.toList.drop Config.cksumRange.1).take Config.cksumRange.2).map BitVec.toNat).sum

/-- The zero-filled buffer with the report id (R152 steps 1 and 2). -/
def blankFrame : Frame := (Vector.replicate 65 (0x00 : Byte)).set 0 Config.reportId

/-- Byte 63 is written last (R150, R152 step 6). -/
def sealFrame (f : Frame) : Frame := f.set 63 (cksum f)

/-- A colour frame (spec/30_encoding.md R117). -/
def colourFrame (byte1 length red green blue brightness : Byte) : Frame :=
  sealFrame ((((((blankFrame.set 1 byte1).set 2 length).set 7 red).set 8 green).set 9 blue).set 10 brightness)

/-- A performance frame (R117, R124). -/
def perfFrame (perf : Byte) : Frame := sealFrame (blankFrame.set 1 perf)

/-- `commit` of R152: all 65 bytes in one step, FRAME_VALID and DONE set. -/
def commitFrame (f : Frame) (s : State) : State :=
  { s with
    frame := f
    status := { s.status with frameValid := true, done := true } }

/-! The sequencer. -/

/-- Fill SEQ with (t, v) (spec/41_sequencer.md R201). -/
def fillSeq (t v : Byte) (s : State) : State :=
  { s with
    seq := buildSeq t v
    status := { s.status with seqValid := true } }

/-- `start(n, t, v)` (R209). `ec_open` is sampled here and nowhere else. -/
def start (n : BitVec 2) (t v : Byte) (s : State) : State :=
  if s.ecOpen then
    let s' := fillSeq t v s
    { s' with
      nsub := n, subseq := 0, stepIx := 0, phase := .ecIdx
      status := { s'.status with busy := true } }
  else raise .deviceNotFound .ok s

/-- An EC command has ended: STEP, SUBSEQ and NSUB are undefined from here on (spec/10_state.md R49), so each
takes a free value. -/
def freePosition (s : State) : State :=
  { s with
    stepIx := (Config.freePosition s.draws).1
    subseq := (Config.freePosition s.draws).2.1
    nsub := (Config.freePosition s.draws).2.2
    draws := s.draws + 1 }

/-- The pair in progress, SEQ[STEP]. -/
def currentPair (s : State) : Pair := s.seq[s.stepIx.toNat]

/-- `fail(phase, resp)`: RegisterWriteFailed with the place of the failing write (R218). The EC state is
unknown from here on (spec/20_memory.md R81). -/
def fail (failPhase : BitVec 1) (resp : Resp) (s : State) : State :=
  freePosition
    (raise .registerWriteFailed resp
      { s with
        status := { s.status with
          failPhase := failPhase, failSubseq := s.subseq, failStep := s.stepIx, failIndex := (currentPair s).index }
        ec := s.ec.forget })

/-- Completion of an EC command (R217). -/
def complete (s : State) : State :=
  freePosition
    { s with
      phase := .idle
      status := { s.status with busy := false, done := true } }

/-- The next sub-sequence of a composite (R216). -/
def nextSubseq (s : State) : State :=
  { fillSeq s.pendT s.pendV s with subseq := 1, stepIx := 0, phase := .ecIdx }

end Sys2Proof.Machine
end

