-- ==== Sys2Proof/Machine/Framer.lean ====
section
/-! DEFINITION. The framer commands (spec/40_framer.md R153 to R156) and the two steps that follow FRM.SEND's
acceptance. A meaning runs after the acceptance effects of spec/20_memory.md R73. -/

namespace Sys2Proof.Machine

/-- FRM.ZONED (R153; a refused operand: R161). -/
def execFrmZoned (zone mode red green blue brightness : Byte) (s : State) : Host.Outcome State Fault Refusal :=
  match zoneRow zone with
  | some row =>
    if modeOk mode then
      .next (commitFrame (colourFrame (zonedByte1 row mode) colourLength red green blue brightness) s)
    else .next (failBuild s)
  | none => .next (failBuild s)

/-- FRM.LEGACY (R154). -/
def execFrmLegacy (mode red green blue brightness : Byte) (s : State) : Host.Outcome State Fault Refusal :=
  if modeOk mode then
    .next (commitFrame (colourFrame (legacyByte1 mode) colourLength red green blue brightness) s)
  else .next (failBuild s)

/-- FRM.PERF (R155). -/
def execFrmPerf (perf : Byte) (s : State) : Host.Outcome State Fault Refusal :=
  if perfOk perf then .next (commitFrame (perfFrame perf) s) else .next (failBuild s)

/-- FRM.SEND, the acceptance step (R156): the frame-held check comes before the handle check
(spec/60_exceptions.md R268). -/
def execFrmSend (s : State) : Host.Outcome State Fault Refusal :=
  if s.status.frameValid then
    if s.hidOpen then
      .next { s with phase := .hidReq, status := { s.status with busy := true } }
    else .next (raise .deviceNotFound .ok s)
  else .next (raiseInvalid s)

/-- BLOCK issues the HidWrite of FRAME[0..64] (R156). -/
def hidIssue (s : State) : State := { s with outstanding := some (.hid s.frame), phase := .hidWait }

/-- HIDT's response to the HidWrite of `f` (R156, spec/60_exceptions.md R266). -/
def hidRespond (f : Frame) (resp : Resp) (s : State) : State :=
  let s' := record (.hidWrite f resp) { s with outstanding := none }
  if resp = .ok then { s' with phase := .idle, status := { s'.status with busy := false, done := true } }
  else raise .ioError resp s'

/-- The HIDT move: enabled when PHASE = HID_WAIT and a HidWrite is outstanding (spec/10_state.md R32). -/
def hidAnswer (resp : Resp) (s : State) : State :=
  match s.phase, s.outstanding with
  | .hidWait, some (.hid f) => hidRespond f resp s
  | _, _ => s

end Sys2Proof.Machine
end

