-- ==== Sys2Proof/Machine/Reserved.lean ====
section
/-! DEFINITION. The reserved opcodes (spec/30_encoding.md R134) and a command word with a reserved bit set
(R111, R133): each raises InvalidArgument. -/

namespace Sys2Proof.Machine

/-- Opcode 0x0 (R134). -/
def execReserved0 (s : State) : Host.Outcome State Fault Refusal := .next (raiseInvalid s)
/-- Opcode 0x6 (R134). -/
def execReserved6 (s : State) : Host.Outcome State Fault Refusal := .next (raiseInvalid s)
/-- Opcode 0x7 (R134). -/
def execReserved7 (s : State) : Host.Outcome State Fault Refusal := .next (raiseInvalid s)
/-- Opcode 0xE (R134). -/
def execReservedE (s : State) : Host.Outcome State Fault Refusal := .next (raiseInvalid s)
/-- Opcode 0xF (R134). -/
def execReservedF (s : State) : Host.Outcome State Fault Refusal := .next (raiseInvalid s)

/-- A word the decoder rejects raises InvalidArgument (R111); for opcodes 0x1 to 0x3 it is also a failed build
(R133, spec/40_framer.md R161). -/
def rejectWord (r : DecodeReject) (s : State) : State :=
  match r with
  | .reservedField op => if op = 0x1 ∨ op = 0x2 ∨ op = 0x3 then failBuild s else raiseInvalid s

end Sys2Proof.Machine
end

