-- ==== Sys2Proof/Machine/Sequencer.lean ====
section
/-! DEFINITION. The sequencer commands (spec/41_sequencer.md R202 to R208) and the FSM steps that follow their
acceptance (R210 to R217). A meaning runs after the acceptance effects of spec/20_memory.md R73. -/

namespace Sys2Proof.Machine

/-- CFG.SETTLE (R202). -/
def execCfgSettle (us : Micros) (s : State) : Host.Outcome State Fault Refusal :=
  if settleOk us then .next (succeed { s with settleUs := us }) else .next (raiseInvalid s)

/-- EC.BUILD (R203): `ec_open` is not sampled. -/
def execEcBuild (target value : Byte) (s : State) : Host.Outcome State Fault Refusal :=
  .next (succeed (fillSeq target value s))

/-- EC.EXEC (R204). -/
def execEcExec (target value : Byte) (s : State) : Host.Outcome State Fault Refusal :=
  .next (start 1 target value s)

/-- EC.PERF (R205). -/
def execEcPerf (ecmode : Byte) (s : State) : Host.Outcome State Fault Refusal :=
  if ecmodeOk ecmode then .next (start 1 Config.perfAddr ecmode s) else .next (raiseInvalid s)

/-- EC.FAN (R206): the value is the operand itself, 0 or 1. -/
def execEcFan (enabled : Byte) (s : State) : Host.Outcome State Fault Refusal :=
  if enabledOk enabled then .next (start 1 Config.fanAddr enabled s) else .next (raiseInvalid s)

/-- EC.MAXON (R207): performance mode Gaming, then fan boost on. -/
def execEcMaxon (s : State) : Host.Outcome State Fault Refusal :=
  .next (start 2 Config.perfAddr 2 { s with pendT := Config.fanAddr, pendV := 1 })

/-- EC.MAXOFF (R208): fan boost off, then performance mode Balance. -/
def execEcMaxoff (s : State) : Host.Outcome State Fault Refusal :=
  .next (start 2 Config.fanAddr 0 { s with pendT := Config.perfAddr, pendV := 1 })

/-- BLOCK issues the index-port write of SEQ[STEP] (R210). -/
def indexIssue (s : State) : State :=
  { s with
    outstanding := some (.port .index (currentPair s).index)
    phase := .ecIdxWait
    ec := s.ec.issueIndex .block }

/-- BLOCK issues the data-port write of SEQ[STEP] (R212). -/
def dataIssue (s : State) : State :=
  { s with
    outstanding := some (.port .data (currentPair s).value)
    phase := .ecDatWait
    ec := s.ec.issueData .block }

/-- PORTT's response to the index-port write of `byte` (R211). -/
def indexRespond (byte : Byte) (resp : Resp) (s : State) : State :=
  let s' := record (.portWrite .block .index byte resp) { s with outstanding := none }
  if resp = .ok then { s' with phase := .ecDat, ec := s'.ec.indexOk .block byte }
  else fail 0 resp s'

/-- A settle delay shorter than EC_LATENCY_US makes the EC state unknown (spec/20_memory.md R81,
spec/70_reset_and_hazards.md R304; notes/assumptions/9.md). -/
def settleMargin (s : State) (e : Ec) : Ec := if s.settleUs.toNat < e.latencyUs then e.forget else e

/-- PORTT's response to the data-port write of `byte` (R213): the settle counter is loaded with
SETTLE_US + 1, in 17 bits. -/
def dataRespond (byte : Byte) (resp : Resp) (s : State) : State :=
  let s' := record (.portWrite .block .data byte resp) { s with outstanding := none }
  if resp = .ok then
    { s' with
      settleCnt := s'.settleUs.setWidth 17 + 1
      phase := .ecSettle
      ec := settleMargin s' (s'.ec.dataOk .block byte) }
  else fail 1 resp s'

/-- The PORTT move: enabled while a port write is outstanding in the matching phase (R211, R213). -/
def portAnswer (resp : Resp) (s : State) : State :=
  match s.phase, s.outstanding with
  | .ecIdxWait, some (.port .index byte) => indexRespond byte resp s
  | .ecDatWait, some (.port .data byte) => dataRespond byte resp s
  | _, _ => s

/-- BLOCK's step when the settle delay of a pair has ended (R215). -/
def settleAdvance (s : State) : State :=
  if s.stepIx.toNat < 7 then { s with stepIx := s.stepIx + 1, phase := .ecIdx }
  else if s.subseq.toNat + 1 < s.nsub.toNat then nextSubseq s
  else complete s

/-- The settle counter's part of a tick (R214). -/
def settleTick (s : State) : State :=
  if s.phase = .ecSettle ∧ 0 < s.settleCnt.toNat then { s with settleCnt := s.settleCnt - 1 } else s

end Sys2Proof.Machine
end

