-- ==== Sys2Proof/Machine/Dispatch.lean ====
section
/-! DEFINITION. The meaning of each command, one arm a constructor (spec/30_encoding.md R133). -/

namespace Sys2Proof.Machine

def exec (i : Instr) (s : State) : Host.Outcome State Fault Refusal :=
  match i with
  | .frmZoned zone mode red green blue brightness => Sys2Proof.Machine.execFrmZoned zone mode red green blue brightness s
  | .frmLegacy mode red green blue brightness => Sys2Proof.Machine.execFrmLegacy mode red green blue brightness s
  | .frmPerf perf => Sys2Proof.Machine.execFrmPerf perf s
  | .frmSend => Sys2Proof.Machine.execFrmSend s
  | .cfgSettle us => Sys2Proof.Machine.execCfgSettle us s
  | .ecBuild target value => Sys2Proof.Machine.execEcBuild target value s
  | .ecExec target value => Sys2Proof.Machine.execEcExec target value s
  | .ecPerf ecmode => Sys2Proof.Machine.execEcPerf ecmode s
  | .ecFan enabled => Sys2Proof.Machine.execEcFan enabled s
  | .ecMaxon => Sys2Proof.Machine.execEcMaxon s
  | .ecMaxoff => Sys2Proof.Machine.execEcMaxoff s
  | .reserved0 => Sys2Proof.Machine.execReserved0 s
  | .reserved6 => Sys2Proof.Machine.execReserved6 s
  | .reserved7 => Sys2Proof.Machine.execReserved7 s
  | .reservedE => Sys2Proof.Machine.execReservedE s
  | .reservedF => Sys2Proof.Machine.execReservedF s

end Sys2Proof.Machine
end

