-- ==== Sys2Proof/Machine/Environment.lean ====
section
/-! DEFINITION. The moves of the agents other than the host's issue (spec/10_state.md R32): the block's FSM
step, the transports' answers, ticks, foreign port writes, the inputs and reset. A move whose agent is not
enabled is no step: it changes nothing (notes/assumptions/1.md). -/

namespace Sys2Proof.Machine

/-- PHASE is an EC phase: an EC command is in progress (spec/20_memory.md R81, R90). -/
def Phase.isEc : Phase → Bool
  | .idle => false
  | .hidReq => false
  | .hidWait => false
  | .ecIdx => true
  | .ecIdxWait => true
  | .ecDat => true
  | .ecDatWait => true
  | .ecSettle => true

/-- The BLOCK move: the FSM transition its phase enables. -/
def blockStep (s : State) : State :=
  match s.phase with
  | .hidReq => hidIssue s
  | .ecIdx => indexIssue s
  | .ecDat => dataIssue s
  | .ecSettle => if s.settleCnt = 0 then settleAdvance s else s
  | .idle => s
  | .hidWait => s
  | .ecIdxWait => s
  | .ecDatWait => s

/-- The TIME move, always enabled (spec/41_sequencer.md R214). -/
def tickStep (s : State) : State :=
  settleTick (record .tick { s with ec := s.ec.tick })

/-- The FOREIGN move (spec/10_state.md R32). While an EC command is in progress it makes the EC state unknown
(spec/20_memory.md R81, R90). -/
def foreignStep (port : Port) (byte : Byte) (resp : Resp) (s : State) : State :=
  record (.portWrite .foreign port byte resp)
    { s with ec := if s.phase.isEc then s.ec.forget else s.ec.foreignWrite port byte resp }

/-- A transport's answer to a request a reset abandoned: recorded, without effect on the block
(spec/70_reset_and_hazards.md R300). A port write that arrives so late belongs to no delivery, and the EC state
is unknown after it (notes/assumptions/12.md). -/
def lateStep (k : Nat) (resp : Resp) (s : State) : State :=
  match s.abandoned[k]? with
  | some (.hid f) => record (.hidWrite f resp) { s with abandoned := s.abandoned.eraseIdx k }
  | some (.port p b) =>
    record (.portWrite .block p b resp) { s with abandoned := s.abandoned.eraseIdx k, ec := s.ec.forget }
  | none => s

/-- The reset input (R300): the block's state takes its reset values, the outstanding request is abandoned, the
inputs and the transports are not touched, and the EC state counts as unknown (R301). That the reset also cuts off a
delivery by FOREIGN, which then never fixes EC_RAM[t], is the model's choice (notes/assumptions/13.md). -/
def resetStep (s : State) : State :=
  record .reset
    { State.reset with
      abandoned := s.abandoned ++ s.outstanding.toList
      hidOpen := s.hidOpen
      ecOpen := s.ecOpen
      history := s.history
      ec := s.ec.forget
      sched := s.sched
      draws := s.draws }

/-- Every move but the host's issue. A host read has no effect (spec/20_memory.md R72); what it returns is
`hostRead`. -/
def envStep (m : Move) (s : State) : State :=
  match m with
  | .issue _ => s
  | .read _ => s
  | .block => blockStep s
  | .hidAnswer resp => hidAnswer resp s
  | .portAnswer resp => portAnswer resp s
  | .lateAnswer k resp => lateStep k resp s
  | .tick => tickStep s
  | .foreignWrite port byte resp => foreignStep port byte resp s
  | .setHidOpen v => { s with hidOpen := v }
  | .setEcOpen v => { s with ecOpen := v }
  | .reset => resetStep s

/-- The next move and the state without it: the first one placed, or a free value where none is
(spec/60_exceptions.md R269). -/
def nextMove (s : State) : Move × State :=
  match s.sched with
  | m :: rest => (m, { s with sched := rest })
  | [] => (Config.freeMove s.draws, { s with draws := s.draws + 1 })

end Sys2Proof.Machine
end

