-- ==== Sys2Proof/Machine/Step.lean ====
section
/-! DEFINITION. One step of the machine: one atomic transition of one agent (spec/10_state.md R32). -/

namespace Sys2Proof.Machine

/-- The acceptance step of a command word (spec/20_memory.md R73, spec/30_encoding.md R133). -/
def issueStep (w : CmdWord) (s : State) : Host.Outcome State Fault Refusal :=
  match decode w with
  | .ok i => exec i (accept w s)
  | .error r => .next (rejectWord r (accept w s))

/-- A move of one agent. The host's issue is enabled only when PHASE = IDLE (R73). -/
def act (m : Move) (s : State) : Host.Outcome State Fault Refusal :=
  match m with
  | .issue w => if s.phase = .idle then issueStep w s else .next s
  | m => .next (envStep m s)

/-- One step: the next move, taken. -/
def step (s : State) : Host.Outcome State Fault Refusal := act (nextMove s).1 (nextMove s).2

/-- The state in which the host's next move is to issue the word `w`, numbered as spec/opcode_table.json numbers
it. Commands enter by the command port only, so this is all that running one takes; the step accepts it when
PHASE = IDLE (notes/assumptions/2.md). -/
def State.withFetchWord (s : State) (nbits w : Nat) : State :=
  { s with sched := .issue (BitVec.ofNat 64 (w % 2 ^ nbits)) :: s.sched }

end Sys2Proof.Machine
end

