-- ==== Sys2Proof/Machine/Flags.lean ====
section
/-! DEFINITION. The STATUS word and its codes (spec/10_state.md R35, spec/60_exceptions.md R262, R264), and the
host's view of the register space (spec/20_memory.md R71, R72). -/

namespace Sys2Proof.Machine

/-- The code of an error (R262). -/
def ErrCode.code : ErrCode → BitVec 4
  | .none => 0
  | .invalidArgument => 1
  | .deviceNotFound => 2
  | .ioError => 3
  | .registerWriteFailed => 4

/-- The code of a transport response (R264). -/
def respCode : Resp → BitVec 2
  | .ok => 0
  | .ioError => 1
  | .permissionDenied => 2
  | .deviceAbsent => 3

/-- A flag as a bit. -/
def flagBit (b : Bool) : BitVec 1 := if b then 1 else 0

/-- The 32-bit STATUS word, each field shifted to its lowest bit; the reserved bits 15 and 31:28 read 0 (R35). -/
def statusWord (st : Status) : HostWord :=
  (flagBit st.busy).setWidth 32 ||| (flagBit st.done).setWidth 32 <<< 1 ||| (flagBit st.frameValid).setWidth 32 <<< 2
    ||| (flagBit st.seqValid).setWidth 32 <<< 3 ||| st.err.code.setWidth 32 <<< 4
    ||| (respCode st.cause).setWidth 32 <<< 8 ||| st.failPhase.setWidth 32 <<< 10
    ||| st.failSubseq.setWidth 32 <<< 11 ||| st.failStep.setWidth 32 <<< 12 ||| st.failIndex.setWidth 32 <<< 16
    ||| st.lastOp.setWidth 32 <<< 24

/-- A SEQ word: the value in bits 15:8, the index in bits 7:0 (spec/20_memory.md R71, R128). -/
def pairWord (p : Pair) : HostWord := p.value.setWidth 32 <<< 8 ||| p.index.setWidth 32

/-- `MemRead` of one word of the host register space (R71, R72): a function of the state, without effect. -/
def hostRead (s : State) (addr : HostAddr) : HostWord :=
  if addr = 0x00 then statusWord s.status
  else if addr = 0x01 then s.settleUs.setWidth 32
  else if 0x10 ≤ addr.toNat ∧ addr.toNat ≤ 0x50 then (s.frame.getD (addr.toNat - 0x10) 0).setWidth 32
  else if 0x60 ≤ addr.toNat ∧ addr.toNat ≤ 0x67 then pairWord (s.seq.getD (addr.toNat - 0x60) ⟨0, 0⟩)
  else 0x00000000

end Sys2Proof.Machine
end

