-- ==== Sys2Proof/Safety.lean ====
section
/-! DEFINITION. The terms claims are stated in: what a frame and a running command must look like, the invariant
of the block, what the event history records, and schedules of moves. -/

namespace Sys2Proof.Safety

open Sys2Proof.Machine

/-! Frames. -/

/-- What every frame the framer emits satisfies: report id, reserved bytes zero, checksum trailer over bytes
1..62, byte 64 zero (spec/30_encoding.md R117 to R119, spec/40_framer.md R150). -/
structure Sealed (f : Frame) : Prop where
  reportId : f[0] = 0x06
  reservedLow : ∀ i (h : i < 65), 3 ≤ i → i ≤ 6 → f[i] = 0x00
  reservedHigh : ∀ i (h : i < 65), 11 ≤ i → i ≤ 62 → f[i] = 0x00
  trailer : f[63] = cksum f
  unused : f[64] = 0x00

/-- The bytes of a frame as the table of R117 lists them, the trailer in the form of spec/40_framer.md R151. -/
def frameByte (byte1 length red green blue brightness : Byte) (i : Nat) : Byte :=
  if i = 0 then 0x06
  else if i = 1 then byte1
  else if i = 2 then length
  else if i = 7 then red
  else if i = 8 then green
  else if i = 9 then blue
  else if i = 10 then brightness
  else if i = 63 then byte1 + length + red + green + blue + brightness
  else 0x00

/-- The complete byte-1 table: a row a zone, a column a mode (spec/30_encoding.md R126). -/
def byte1Table : List (List Byte) :=
  [[0x10, 0x11, 0x12, 0x13, 0x14, 0x15, 0x16],
   [0x60, 0x61, 0x62, 0x63, 0x64, 0x65, 0x66],
   [0x64, 0x65, 0x66, 0x67, 0x64, 0x65, 0x66],
   [0x70, 0x71, 0x72, 0x73, 0x74, 0x75, 0x76],
   [0x74, 0x75, 0x76, 0x77, 0x74, 0x75, 0x76]]

/-- The entry of the byte-1 table for a zone and a mode. -/
def byte1At (zone mode : Byte) : Byte := (byte1Table.getD zone.toNat []).getD mode.toNat 0

/-- The bits of a command word that its opcode uses: OP, and for a valid opcode the reserved fields and the
operand fields without a dash in spec/30_encoding.md R113. -/
def usedBits (op : BitVec 4) : CmdWord :=
  match op.toNat with
  | 0x1 => 0xFFFFFFFFFFFFFFFF
  | 0x2 => 0xFFFFFFFFFFFF00FF
  | 0x3 => 0xFF0000000000FFFF
  | 0x4 => 0xFF000000000000FF
  | 0x5 => 0xFF00000000FFFFFF
  | 0x8 => 0xFF00000000FFFFFF
  | 0x9 => 0xFF00000000FFFFFF
  | 0xA => 0xFF0000000000FFFF
  | 0xB => 0xFF0000000000FFFF
  | 0xC => 0xFF000000000000FF
  | 0xD => 0xFF000000000000FF
  | _ => 0x000000000000000F

/-! The block's invariant. -/

/-- The request a phase has outstanding (spec/10_state.md R48, R54). -/
def requestOf (s : State) : Option Request :=
  match s.phase with
  | .hidWait => some (.hid s.frame)
  | .ecIdxWait => some (.port .index (currentPair s).index)
  | .ecDatWait => some (.port .data (currentPair s).value)
  | .idle => none
  | .hidReq => none
  | .ecIdx => none
  | .ecDat => none
  | .ecSettle => none

/-- What holds of the block in every state a run reaches. -/
structure Inv (s : State) : Prop where
  /-- R36 -/
  busy : s.status.busy = true ↔ s.phase ≠ .idle
  /-- R37, R40: a command in progress has neither succeeded nor failed. -/
  running : s.phase ≠ .idle → s.status.done = false ∧ s.status.err = .none
  /-- R40 -/
  done : s.status.done = true → s.status.err = .none
  /-- R41 -/
  cause : s.status.cause = .ok ↔ ¬(s.status.err = .ioError ∨ s.status.err = .registerWriteFailed)
  /-- R42 -/
  failZero : s.status.err ≠ .registerWriteFailed →
    s.status.failPhase = 0 ∧ s.status.failSubseq = 0 ∧ s.status.failStep = 0 ∧ s.status.failIndex = 0
  /-- R218: SEQ keeps the sequence that failed. -/
  failPlace : s.status.err = .registerWriteFailed →
    s.status.failIndex = (s.seq[s.status.failStep.toNat]).index
  /-- R54, R91 -/
  outstanding : s.outstanding = requestOf s
  /-- R45 -/
  settleFloor : 1000 ≤ s.settleUs.toNat
  /-- R51 -/
  settleCnt : s.phase = .ecSettle → s.settleCnt.toNat ≤ s.settleUs.toNat + 1
  /-- R46 with R117 to R119, R150 -/
  frameSealed : s.frame = Vector.replicate 65 0x00 ∨ Sealed s.frame
  /-- R38 -/
  frameValid : s.status.frameValid = true → Sealed s.frame
  /-- R156, R161: what is being sent is a sealed frame. -/
  sending : s.phase = .hidReq ∨ s.phase = .hidWait → s.status.frameValid = true
  /-- R39 -/
  seqValid : s.status.seqValid = true → ∃ t v, s.seq = buildSeq t v
  /-- R49, R201 -/
  position : s.phase.isEc = true →
    s.status.seqValid = true ∧ (s.nsub = 1 ∨ s.nsub = 2) ∧ s.subseq.toNat < s.nsub.toNat
  /-- The known bytes of EC_RAM are in canonical form. -/
  ecRam : Memory.wf s.ec.ram = true
  /-- R81: after register writes that were cut off nothing is known until a clean delivery. -/
  ecStale : s.ec.stale = true → s.ec.ram = []

/-- The command runs the one sequence `buildSeq t v` (spec/41_sequencer.md R204 to R206). -/
def RunsOne (i : Instr) (t v : Byte) : Prop :=
  i = .ecExec t v ∨ (i = .ecPerf v ∧ t = 0x40 ∧ v.toNat ≤ 2) ∨ (i = .ecFan v ∧ t = 0x41 ∧ v.toNat ≤ 1)

/-- The sequence that EC.MAXON and EC.MAXOFF run at each position of the composite
(spec/41_sequencer.md R207, R208, R222). -/
def compositeSeq (op : BitVec 4) (subseq : BitVec 1) : Seq :=
  if op = 0xC then (if subseq = 0 then buildSeq 0x40 2 else buildSeq 0x41 1)
  else (if subseq = 0 then buildSeq 0x41 0 else buildSeq 0x40 1)

/-- What SEQ, NSUB, PEND_T and PEND_V hold while an EC command runs, by the opcode in STATUS.LAST_OP
(R204 to R208, spec/10_state.md R50). -/
def RunsItsSequence (s : State) : Prop :=
  s.phase.isEc = true →
    (s.status.lastOp = 0x9 ∧ s.nsub = 1 ∧ s.subseq = 0 ∧ ∃ t v : Byte, s.seq = buildSeq t v) ∨
    (s.status.lastOp = 0xA ∧ s.nsub = 1 ∧ s.subseq = 0 ∧ ∃ m : Byte, m.toNat ≤ 2 ∧ s.seq = buildSeq 0x40 m) ∨
    (s.status.lastOp = 0xB ∧ s.nsub = 1 ∧ s.subseq = 0 ∧ ∃ n : Byte, n.toNat ≤ 1 ∧ s.seq = buildSeq 0x41 n) ∨
    (s.status.lastOp = 0xC ∧ s.nsub = 2 ∧ s.pendT = 0x41 ∧ s.pendV = 1 ∧ s.seq = compositeSeq 0xC s.subseq) ∨
    (s.status.lastOp = 0xD ∧ s.nsub = 2 ∧ s.pendT = 0x40 ∧ s.pendV = 1 ∧ s.seq = compositeSeq 0xD s.subseq)

/-! What the history says (newest event first). -/

/-- No command has been accepted since the last reset. -/
def noAcceptSinceReset : List Event → Bool
  | [] => true
  | .reset :: _ => true
  | .accept _ :: _ => false
  | .hidWrite _ _ :: h => noAcceptSinceReset h
  | .portWrite _ _ _ _ :: h => noAcceptSinceReset h
  | .tick :: h => noAcceptSinceReset h

/-- Every accepted command ends in success or in an error: the idle block shows neither only before the first
acceptance after a reset (spec/60_exceptions.md R272). -/
def AnswersEveryCommand (s : State) : Prop :=
  s.phase = .idle → s.status.done = false → s.status.err = .none → noAcceptSinceReset s.history = true

/-- The ticks recorded since the block's newest data-port write was answered. -/
def ticksSinceData : List Event → Nat
  | [] => 0
  | .portWrite .block .data _ _ :: _ => 0
  | .tick :: h => ticksSinceData h + 1
  | .portWrite .block .index _ _ :: h => ticksSinceData h
  | .portWrite .foreign _ _ _ :: h => ticksSinceData h
  | .hidWrite _ _ :: h => ticksSinceData h
  | .accept _ :: h => ticksSinceData h
  | .reset :: h => ticksSinceData h

/-- While the settle delay of a pair runs, the ticks already recorded since its data write and the ticks still to
be counted make at least SETTLE_US + 1 (spec/41_sequencer.md R213, R214, R220). -/
def SettleAccounted (s : State) : Prop :=
  s.phase = .ecSettle → s.settleUs.toNat + 1 ≤ s.settleCnt.toNat + ticksSinceData s.history

/-- The block's port writes in the history, newest first, with their answers. -/
def blockWrites : List Event → List (Port × Byte × Resp)
  | [] => []
  | .portWrite .block p b r :: h => (p, b, r) :: blockWrites h
  | .portWrite .foreign _ _ _ :: h => blockWrites h
  | .hidWrite _ _ :: h => blockWrites h
  | .accept _ :: h => blockWrites h
  | .tick :: h => blockWrites h
  | .reset :: h => blockWrites h

/-- The port writes of the pairs, each answered OK, in order: index before data (spec/20_memory.md R77, R87). -/
def okWrites (ps : List Pair) : List (Port × Byte × Resp) :=
  ps.flatMap fun p => [(.index, p.index, .ok), (.data, p.value, .ok)]

/-- The port writes of the history by any agent, newest first (spec/20_memory.md R93). -/
def portWrites : List Event → List (Writer × Port × Byte × Resp)
  | [] => []
  | .portWrite w p b r :: h => (w, p, b, r) :: portWrites h
  | .hidWrite _ _ :: h => portWrites h
  | .accept _ :: h => portWrites h
  | .tick :: h => portWrites h
  | .reset :: h => portWrites h

/-- The port writes that the EC's delivery in progress is made of, newest first. -/
def deliveryWrites (e : Ec) : List (Writer × Port × Byte × Resp) :=
  (match e.half with
    | .none => []
    | .indexIssued => []
    | .indexDone i => [(e.owner, .index, i, .ok)]
    | .dataIssued i => [(e.owner, .index, i, .ok)])
  ++ e.pairs.flatMap fun p => [(e.owner, .data, p.value, .ok), (e.owner, .index, p.index, .ok)]

/-- The ticks recorded since the newest port write of any agent. -/
def ticksSinceWrite : List Event → Nat
  | [] => 0
  | .portWrite _ _ _ _ :: _ => 0
  | .tick :: h => ticksSinceWrite h + 1
  | .hidWrite _ _ :: h => ticksSinceWrite h
  | .accept _ :: h => ticksSinceWrite h
  | .reset :: h => ticksSinceWrite h

/-- The EC's account of the delivery in progress is what the history records: its writes are the newest port
writes, all by one agent and all answered OK, and its gap is the ticks since the newest
(spec/20_memory.md R79 (a) to (c), R93). -/
def DeliveryOnRecord (s : State) : Prop :=
  deliveryWrites s.ec <+: portWrites s.history ∧
    (s.ec.half = .none → s.ec.pairs ≠ [] → s.ec.ticks = ticksSinceWrite s.history)

/-- The EC's whole state is unknown (spec/20_memory.md R81). -/
def EcUnknown (e : Ec) : Prop :=
  (∀ a, e.known a = none) ∧ e.latch = none ∧ e.pendAddr = none ∧ e.pendVal = none

/-! Schedules. -/

/-- A move that neither starts a command nor disturbs one: no issue, no reset, no port write by FOREIGN, no
answer to an abandoned request. -/
def quiet : Move → Bool
  | .issue _ => false
  | .lateAnswer _ _ => false
  | .foreignWrite _ _ _ => false
  | .reset => false
  | .read _ => true
  | .block => true
  | .hidAnswer _ => true
  | .portAnswer _ => true
  | .tick => true
  | .setHidOpen _ => true
  | .setEcOpen _ => true

/-- The moves of one register write with `n` ticks of settle delay (spec/41_sequencer.md R210 to R215). -/
def pairMoves (n : Nat) : List Move :=
  [.block, .portAnswer .ok, .block, .portAnswer .ok] ++ List.replicate n .tick ++ [.block]

/-- The moves of `k` register writes. -/
def sequenceMoves (k n : Nat) : List Move := (List.replicate k (pairMoves n)).flatten

/-- The moves by which FOREIGN delivers register writes itself, `n` ticks after each. -/
def foreignMoves (ps : List Pair) (n : Nat) : List Move :=
  ps.flatMap fun p =>
    [.foreignWrite .index p.index .ok, .foreignWrite .data p.value .ok] ++ List.replicate n .tick

/-- How far a phase is from the end of its register write or transfer. -/
def phaseRank : Phase → Nat
  | .idle => 0
  | .hidReq => 2
  | .hidWait => 1
  | .ecIdx => 5
  | .ecIdxWait => 4
  | .ecDat => 3
  | .ecDatWait => 2
  | .ecSettle => 1

/-- How many moves a command still needs, at most: BLOCK steps, answers and ticks (spec/70_reset_and_hazards.md
R312). -/
def distance (s : State) : Nat :=
  match s.phase with
  | .idle => 0
  | .hidReq => 2
  | .hidWait => 1
  | p =>
    ((s.nsub.toNat - 1 - s.subseq.toNat) * 8 + (7 - s.stepIx.toNat)) * (s.settleUs.toNat + 6) + phaseRank p
      + (if p = .ecSettle then s.settleCnt.toNat else s.settleUs.toNat + 1)

end Sys2Proof.Safety
end

