-- ==== Sys2Proof/Certificates/Slice0/Obligations.lean ====
section
/-! DEFINITION. The statements for the provers. Each docstring names the rules of spec/ it comes from. A premise
`s.sched = m :: rest` says that the step is the move `m` of one agent (spec/10_state.md R32): that State holds the
moves to come is the model's own way to say which agent is scheduled (notes/assumptions/1.md). -/

open Sys2Proof Sys2Proof.Machine Sys2Proof.Safety

/-! Encoding. -/

/-- Decode and encode agree on every command, with every operand at every value (R110, R113, R115). -/
def Obligations.DecodeEncodeRoundTrip : Prop :=
  ∀ i : Instr, decode (encode i) = .ok i

/-- A decoded word lies in the row of spec/opcode_table.json that its command stands for. -/
def Obligations.DecodedWordLiesInItsRow : Prop :=
  ∀ (w : CmdWord) (i : Instr), decode w = .ok i → w &&& i.rowMask = i.rowMatch

/-- The words of valid commands are those with both reserved fields zero and an opcode of the map (R113). -/
def Obligations.ValidWordsAreThoseOfTheMap : Prop :=
  ∀ w : CmdWord,
    (∃ i, decode w = .ok i ∧ i ≠ .reserved0 ∧ i ≠ .reserved6 ∧ i ≠ .reserved7 ∧ i ≠ .reservedE ∧ i ≠ .reservedF) ↔
      (w &&& 0xFF000000000000F0 = 0 ∧ w.op ≠ 0x0 ∧ w.op ≠ 0x6 ∧ w.op ≠ 0x7 ∧ w.op ≠ 0xE ∧ w.op ≠ 0xF)

/-- No bit of an operand field that the opcode does not use changes what a word decodes to (R112). That the reserved
fields of a word with a reserved opcode do not either is the model's choice of the order of checks
(notes/assumptions/19.md). -/
def Obligations.UnusedFieldsAreIgnored : Prop :=
  ∀ w w' : CmdWord, w &&& usedBits w.op = w' &&& usedBits w.op → decode w = decode w'

/-- Words written out from the encodings of R110 and R113 decode to the commands they stand for. -/
def Obligations.WrittenOutWordsDecode : Prop :=
  decode 0x0078563412020301 = .ok (.frmZoned 3 2 0x12 0x34 0x56 0x78) ∧
  decode 0x00320064FF040002 = .ok (.frmLegacy 4 255 100 0 50) ∧
  decode 0x0000000000004203 = .ok (.frmPerf 0x42) ∧
  decode 0x0000000000000004 = .ok .frmSend ∧
  decode 0x000000000003E805 = .ok (.cfgSettle 1000) ∧
  decode 0x0000000000014108 = .ok (.ecBuild 0x41 1) ∧
  decode 0x0000000000014109 = .ok (.ecExec 0x41 1) ∧
  decode 0x000000000000020A = .ok (.ecPerf 2) ∧
  decode 0x000000000000010B = .ok (.ecFan 1) ∧
  decode 0x000000000000000C = .ok .ecMaxon ∧
  decode 0x000000000000000D = .ok .ecMaxoff ∧
  decode 0x0000000000000000 = .ok .reserved0 ∧
  decode 0x0000000000010111 = .error (.reservedField 0x1)

/-- What each assembler line becomes (R129, R130). A line of numbers in range is the word of its opcode and fields,
unused and reserved fields 0, for each of the eleven forms; a name stands for its number, OFFICE, BALANCE and GAMING
for 0x40, 0x41, 0x42 in FRM.PERF and for 0, 1, 2 in EC.PERF; each pseudo-instruction is its expansion; and the word of
a line decodes to the line's command. A line with a number out of range has no word, which is the model's choice
(notes/assumptions/18.md). -/
def Obligations.AssembledLineDecodesToItsCommand : Prop :=
  (∀ zone mode r g b bri perf t v : Byte, ∀ us : Micros,
    (AsmLine.frmZoned (.num zone.toNat) (.num mode.toNat) r.toNat g.toNat b.toNat bri.toNat).assemble =
      some (cmdWord 0x1 zone mode r g b bri) ∧
    (AsmLine.frmLegacy (.num mode.toNat) r.toNat g.toNat b.toNat bri.toNat).assemble =
      some (cmdWord 0x2 0 mode r g b bri) ∧
    (AsmLine.frmPerf (.num perf.toNat)).assemble = some (cmdWord 0x3 perf 0 0 0 0 0) ∧
    AsmLine.frmSend.assemble = some 0x0000000000000004 ∧
    (AsmLine.cfgSettle us.toNat).assemble = some (0x0000000000000005 ||| us.setWidth 64 <<< 8) ∧
    (AsmLine.ecBuild t.toNat v.toNat).assemble = some (cmdWord 0x8 t v 0 0 0 0) ∧
    (AsmLine.ecExec t.toNat v.toNat).assemble = some (cmdWord 0x9 t v 0 0 0 0) ∧
    (AsmLine.ecPerf (.num perf.toNat)).assemble = some (cmdWord 0xA perf 0 0 0 0 0) ∧
    (AsmLine.ecFan (.num perf.toNat)).assemble = some (cmdWord 0xB perf 0 0 0 0 0) ∧
    AsmLine.ecMaxon.assemble = some 0x000000000000000C ∧
    AsmLine.ecMaxoff.assemble = some 0x000000000000000D) ∧
  (∀ x ∈ [(ZoneName.all, 0), (.left, 1), (.midLeft, 2), (.midRight, 3), (.right, 4)], ∀ mode r g b bri,
    (AsmLine.frmZoned (.name x.1) mode r g b bri).assemble = (AsmLine.frmZoned (.num x.2) mode r g b bri).assemble) ∧
  (∀ x ∈ [(ModeName.off, 0), (.static, 1), (.breathing, 2), (.neon, 3), (.rainbow, 4), (.flow, 5), (.wave, 6)],
    ∀ zone r g b bri,
      (AsmLine.frmZoned zone (.name x.1) r g b bri).assemble = (AsmLine.frmZoned zone (.num x.2) r g b bri).assemble ∧
      (AsmLine.frmLegacy (.name x.1) r g b bri).assemble = (AsmLine.frmLegacy (.num x.2) r g b bri).assemble) ∧
  (∀ x ∈ [(PerfName.office, 0x40, 0), (.balance, 0x41, 1), (.gaming, 0x42, 2)],
    (AsmLine.frmPerf (.name x.1)).assemble = (AsmLine.frmPerf (.num x.2.1)).assemble ∧
    (AsmLine.ecPerf (.name x.1)).assemble = (AsmLine.ecPerf (.num x.2.2)).assemble) ∧
  (∀ x ∈ [(FanName.on, 1), (.off, 0)],
    (AsmLine.ecFan (.name x.1)).assemble = (AsmLine.ecFan (.num x.2)).assemble) ∧
  (∀ mode r g b bri,
    (AsmLine.frmAll mode r g b bri).assemble = (AsmLine.frmZoned (.name .all) mode r g b bri).assemble) ∧
  AsmLine.ecFanOn.assemble = (AsmLine.ecFan (.num 1)).assemble ∧
  AsmLine.ecFanOff.assemble = (AsmLine.ecFan (.num 0)).assemble ∧
  (∀ t v, (AsmLine.ecRaw t v).assemble = (AsmLine.ecExec t v).assemble) ∧
  (∀ (l : AsmLine) (w : CmdWord), l.assemble = some w → decode w = .ok l.instr) ∧
  (∀ zone mode r g b bri perf t v us : Nat,
    ((AsmLine.frmZoned (.num zone) (.num mode) r g b bri).assemble = none ↔
      256 ≤ zone ∨ 256 ≤ mode ∨ 256 ≤ r ∨ 256 ≤ g ∨ 256 ≤ b ∨ 256 ≤ bri) ∧
    ((AsmLine.frmLegacy (.num mode) r g b bri).assemble = none ↔
      256 ≤ mode ∨ 256 ≤ r ∨ 256 ≤ g ∨ 256 ≤ b ∨ 256 ≤ bri) ∧
    ((AsmLine.frmPerf (.num perf)).assemble = none ↔ 256 ≤ perf) ∧
    ((AsmLine.cfgSettle us).assemble = none ↔ 65536 ≤ us) ∧
    ((AsmLine.ecBuild t v).assemble = none ↔ 256 ≤ t ∨ 256 ≤ v) ∧
    ((AsmLine.ecExec t v).assemble = none ↔ 256 ≤ t ∨ 256 ≤ v) ∧
    ((AsmLine.ecPerf (.num perf)).assemble = none ↔ 256 ≤ perf) ∧
    ((AsmLine.ecFan (.num perf)).assemble = none ↔ 256 ≤ perf)) ∧
  ∀ l : AsmLine, l.assemble = none ↔ l.wellFormed = false

/-! Acceptance. -/

/-- When the host is to issue a word that decodes to a command and PHASE is IDLE, the step is the command's
meaning on the accepted state: the move taken from the schedule and the acceptance effects of R73 done. Nothing else is
added around the meaning. -/
def Obligations.StepRunsTheDecodedCommand : Prop :=
  ∀ (s : State) (w : CmdWord) (i : Instr) (rest : List Move),
    s.sched = .issue w :: rest → s.phase = .idle → decode w = .ok i →
    step s = exec i
      { s with
        sched := rest, history := .accept w :: s.history
        status := { s.status with
          lastOp := w.op, done := false, err := .none, cause := .ok,
          failPhase := 0, failSubseq := 0, failStep := 0, failIndex := 0 } }

/-- LAST_OP takes the opcode field of every accepted word, whether the command succeeds, fails or is undefined
(R43), and the acceptance is recorded. -/
def Obligations.EveryAcceptanceSetsLastOp : Prop :=
  ∀ (s : State) (w : CmdWord) (rest : List Move),
    s.sched = .issue w :: rest → s.phase = .idle →
    ∃ t, step s = .next t ∧ t.status.lastOp = w.op ∧ t.history = .accept w :: s.history

/-- While the block is busy the command port accepts nothing (R73): the move is used up without effect, which is the
model's choice for a move that is not enabled (notes/assumptions/1.md). -/
def Obligations.BusyPortAcceptsNothing : Prop :=
  ∀ (s : State) (w : CmdWord) (rest : List Move),
    s.sched = .issue w :: rest → s.phase ≠ .idle → step s = .next { s with sched := rest }

/-- A word with any reserved bit set, whatever its opcode, raises InvalidArgument and has no other effect than that of
acceptance, but that FRAME_VALID is cleared for opcodes 0x1 to 0x3 (R111, R161). -/
def Obligations.ReservedBitsRaiseInvalidArgument : Prop :=
  ∀ (s : State) (w : CmdWord) (rest : List Move),
    s.sched = .issue w :: rest → s.phase = .idle →
    (w.rsv0 ≠ 0 ∨ w.rsv1 ≠ 0) →
    step s = .next
      { s with
        sched := rest, history := .accept w :: s.history, phase := .idle
        status := { s.status with
          lastOp := w.op, done := false, err := .invalidArgument, cause := .ok,
          failPhase := 0, failSubseq := 0, failStep := 0, failIndex := 0, busy := false,
          frameValid := s.status.frameValid && !decide (w.op ∈ [0x1, 0x2, 0x3]) } }

/-- A word with a reserved opcode, whatever its other bits, raises InvalidArgument and changes only the STATUS
fields of acceptance and of the error (R134); the all-zero word is one of them. -/
def Obligations.ReservedOpcodeWordsRaiseInvalidArgument : Prop :=
  ∀ (s : State) (w : CmdWord) (rest : List Move),
    s.sched = .issue w :: rest → s.phase = .idle → w.op ∈ [0x0, 0x6, 0x7, 0xE, 0xF] →
    step s = .next
      { s with
        sched := rest, history := .accept w :: s.history, phase := .idle
        status := { s.status with
          lastOp := w.op, done := false, err := .invalidArgument, cause := .ok,
          failPhase := 0, failSubseq := 0, failStep := 0, failIndex := 0, busy := false } }

/-- The meaning of each reserved opcode: InvalidArgument, nothing else (R134, R270). -/
def Obligations.ReservedOpcodesOnlyRaise : Prop :=
  ∀ (s : State) (i : Instr), i ∈ [Instr.reserved0, .reserved6, .reserved7, .reservedE, .reservedF] →
    exec i s = .next
      { s with
        phase := .idle
        status := { s.status with err := .invalidArgument, cause := .ok, done := false, busy := false } }

/-! Framer. -/

/-- FRM.ZONED on a zone and a mode of the tables commits the frame of R117 with the byte 1 of the table of R126,
sets FRAME_VALID and DONE, and changes nothing else (R152, R153). -/
def Obligations.ZonedBuildCommitsItsFrame : Prop :=
  ∀ (s : State) (zone mode red green blue brightness : Byte), zone.toNat ≤ 4 → mode.toNat ≤ 6 →
    ∃ f : Frame,
      exec (.frmZoned zone mode red green blue brightness) s =
        .next { s with frame := f, status := { s.status with frameValid := true, done := true } } ∧
      ∀ (k : Nat) (h : k < 65), f[k] = frameByte (byte1At zone mode) 0x04 red green blue brightness k

/-- FRM.LEGACY on a mode of the table commits the frame of R117 with byte 1 = 0x10 | mode (R123), sets FRAME_VALID and
DONE, and changes nothing else (R152, R154). -/
def Obligations.LegacyBuildCommitsItsFrame : Prop :=
  ∀ (s : State) (mode red green blue brightness : Byte), mode.toNat ≤ 6 →
    ∃ f : Frame,
      exec (.frmLegacy mode red green blue brightness) s =
        .next { s with frame := f, status := { s.status with frameValid := true, done := true } } ∧
      ∀ (k : Nat) (h : k < 65), f[k] = frameByte (0x10 ||| mode) 0x04 red green blue brightness k

/-- FRM.PERF on one of the three performance bytes commits the frame with the byte itself in bytes 1 and 63 and 0x00
in bytes 2 to 62 and 64, sets FRAME_VALID and DONE, and changes nothing else (R124, R152, R155). -/
def Obligations.PerfBuildCommitsItsFrame : Prop :=
  ∀ (s : State) (perf : Byte), perf ∈ [0x40, 0x41, 0x42] →
    ∃ f : Frame,
      exec (.frmPerf perf) s =
        .next { s with frame := f, status := { s.status with frameValid := true, done := true } } ∧
      ∀ (k : Nat) (h : k < 65), f[k] = frameByte perf 0 0 0 0 0 k

/-- A build with an operand out of its domain raises InvalidArgument, clears FRAME_VALID and keeps FRAME
(R153, R154, R155, R161). -/
def Obligations.RefusedBuildKeepsTheFrame : Prop :=
  ∀ (s : State) (i : Instr),
    ((∃ z m r g b bri, i = .frmZoned z m r g b bri ∧ (4 < z.toNat ∨ 6 < m.toNat)) ∨
      (∃ m r g b bri, i = .frmLegacy m r g b bri ∧ 6 < m.toNat) ∨
      (∃ p, i = .frmPerf p ∧ p ∉ [0x40, 0x41, 0x42])) →
    exec i s = .next
      { s with
        phase := .idle
        status := { s.status with
          frameValid := false, err := .invalidArgument, cause := .ok, done := false, busy := false } }

/-- FRM.LEGACY and FRM.ZONED with zone All have the same effect on every state, and for every valid mode both commit
one and the same frame (R157). -/
def Obligations.LegacyEqualsZonedAll : Prop :=
  ∀ (s : State) (mode red green blue brightness : Byte),
    exec (.frmLegacy mode red green blue brightness) s = exec (.frmZoned 0 mode red green blue brightness) s ∧
    (mode.toNat ≤ 6 → ∃ f : Frame,
      exec (.frmZoned 0 mode red green blue brightness) s =
        .next { s with frame := f, status := { s.status with frameValid := true, done := true } })

/-- Every builder is a function of its operands alone: the frame that a build with operands in their domains commits is
the same from every state, and nothing but FRAME and the two flags changes (R158). -/
def Obligations.BuildersReadOnlyTheirOperands : Prop :=
  ∀ i : Instr, i.opcode ∈ [0x1, 0x2, 0x3] → i.wellFormed = true →
    ∃ f : Frame, ∀ s : State,
      exec i s = .next { s with frame := f, status := { s.status with frameValid := true, done := true } }

/-- The checksum is the exact sum of bytes 1 to 62, both inclusive, modulo 256, and every build writes to byte 63 the
checksum of the frame it commits (R150). -/
def Obligations.ChecksumIsTheSumOfBytes1To62 : Prop :=
  (∀ f : Frame, (cksum f).toNat = (∑ k ∈ Finset.Icc 1 62, (f.getD k 0).toNat) % 256) ∧
  ∀ (i : Instr) (s : State), i.opcode ∈ [0x1, 0x2, 0x3] → i.wellFormed = true →
    ∃ t, exec i s = .next t ∧ t.frame[63] = cksum t.frame

/-- FRM.SEND with a sealed frame held and the handle open starts the transfer (R156). -/
def Obligations.SendStartsTheTransfer : Prop :=
  ∀ s : State, s.status.frameValid = true → s.hidOpen = true →
    exec .frmSend s = .next { s with phase := .hidReq, status := { s.status with busy := true } }

/-- FRM.SEND without a sealed frame is InvalidArgument whatever the handle; with one, a closed handle is
DeviceNotFound (R156, R263 (f), R265, R268). -/
def Obligations.SendReportsItsErrorsInOrder : Prop :=
  ∀ s : State,
    (s.status.frameValid = false →
      exec .frmSend s = .next
        { s with
          phase := .idle
          status := { s.status with err := .invalidArgument, cause := .ok, done := false, busy := false } }) ∧
    (s.status.frameValid = true → s.hidOpen = false →
      exec .frmSend s = .next
        { s with
          phase := .idle
          status := { s.status with err := .deviceNotFound, cause := .ok, done := false, busy := false } })

/-- The two steps after FRM.SEND's acceptance: the block issues FRAME whole, and the answer ends the command, in
success on OK and in IoError with the answer as its cause otherwise (R156, R266). -/
def Obligations.SendTransfersTheFrame : Prop :=
  ∀ (s : State) (f : Frame) (resp : Resp) (rest : List Move),
    (s.sched = .block :: rest → s.phase = .hidReq →
      step s = .next { s with sched := rest, outstanding := some (.hid s.frame), phase := .hidWait }) ∧
    (s.sched = .hidAnswer resp :: rest → s.phase = .hidWait → s.outstanding = some (.hid f) →
      step s = .next
        { s with
          sched := rest, outstanding := none, history := .hidWrite f resp :: s.history, phase := .idle
          status :=
            if resp = .ok then { s.status with busy := false, done := true }
            else { s.status with err := .ioError, cause := resp, done := false, busy := false } })

/-! Sequencer commands. -/

/-- CFG.SETTLE writes SETTLE_US and sets DONE for every value from 1000 up, and refuses every value below it with
SETTLE_US unchanged (R202, R45). -/
def Obligations.SettleCommandRespectsTheFloor : Prop :=
  ∀ (s : State) (us : Micros),
    (1000 ≤ us.toNat →
      exec (.cfgSettle us) s = .next { s with settleUs := us, status := { s.status with done := true } }) ∧
    (us.toNat < 1000 →
      exec (.cfgSettle us) s = .next
        { s with
          phase := .idle
          status := { s.status with err := .invalidArgument, cause := .ok, done := false, busy := false } })

/-- EC.BUILD fills SEQ with the eight pairs of R127 for every target and value, sets SEQ_VALID and DONE, and
touches nothing else; `ec_open` plays no part (R200, R201, R203). -/
def Obligations.EcBuildFillsSeq : Prop :=
  ∀ (s : State) (t v : Byte),
    exec (.ecBuild t v) s = .next
      { s with
        seq := #v[⟨0x94, 0x00⟩, ⟨0x91, 0x00⟩, ⟨0x92, 0x00⟩, ⟨0x92, 0x01⟩, ⟨0x90, 0x00⟩, ⟨0x91, t⟩, ⟨0xA0, v⟩,
          ⟨0x93, 0xA1⟩]
        status := { s.status with seqValid := true, done := true } }

/-- EC.EXEC, EC.PERF and EC.FAN with the port resource open start one sequence: (t, v), (0x40, ecmode) and
(0x41, enabled), for every operand of their domains (R204, R205, R206, R209). -/
def Obligations.SingleSequenceCommandsStart : Prop :=
  ∀ s : State, s.ecOpen = true → ∀ (i : Instr) (t v : Byte),
    (i = .ecExec t v ∨ (i = .ecPerf v ∧ t = 0x40 ∧ v.toNat ≤ 2) ∨ (i = .ecFan v ∧ t = 0x41 ∧ v.toNat ≤ 1)) →
    exec i s = .next
      { s with
        seq := buildSeq t v, nsub := 1, subseq := 0, stepIx := 0, phase := .ecIdx
        status := { s.status with seqValid := true, busy := true } }

/-- EC.MAXON and EC.MAXOFF with the port resource open start the first sequence of their composite and hold the
second: (0x40, 2) then (0x41, 1), and (0x41, 0) then (0x40, 1) (R207, R208, R209, R50). -/
def Obligations.CompositeCommandsStart : Prop :=
  ∀ s : State, s.ecOpen = true →
    exec .ecMaxon s = .next
      { s with
        pendT := 0x41, pendV := 1, seq := buildSeq 0x40 2, nsub := 2, subseq := 0, stepIx := 0, phase := .ecIdx
        status := { s.status with seqValid := true, busy := true } } ∧
    exec .ecMaxoff s = .next
      { s with
        pendT := 0x40, pendV := 1, seq := buildSeq 0x41 0, nsub := 2, subseq := 0, stepIx := 0, phase := .ecIdx
        status := { s.status with seqValid := true, busy := true } }

/-- With the port resource closed, EC.EXEC, EC.PERF and EC.FAN with an operand in its domain, EC.MAXON and EC.MAXOFF
raise DeviceNotFound: SEQ, FRAME and the rest stay, but for the PEND registers that a composite writes first (R207,
R208, R209, R265). -/
def Obligations.ClosedPortRaisesDeviceNotFound : Prop :=
  ∀ s : State, s.ecOpen = false → ∀ i : Instr,
    ((∃ t v, i = .ecExec t v) ∨ (∃ m, i = .ecPerf m ∧ m.toNat ≤ 2) ∨ (∃ n, i = .ecFan n ∧ n.toNat ≤ 1) ∨
      i = .ecMaxon ∨ i = .ecMaxoff) →
    exec i s = .next
      { s with
        pendT := if i = .ecMaxon then 0x41 else if i = .ecMaxoff then 0x40 else s.pendT
        pendV := if i = .ecMaxon ∨ i = .ecMaxoff then 1 else s.pendV
        phase := .idle
        status := { s.status with err := .deviceNotFound, cause := .ok, done := false, busy := false } }

/-- EC.PERF above 2 and EC.FAN above 1 raise InvalidArgument, open port or not; SEQ is unchanged (R205, R206,
R268). -/
def Obligations.EcOperandsOutOfDomainRefused : Prop :=
  ∀ (s : State) (i : Instr),
    ((∃ m, i = .ecPerf m ∧ 2 < m.toNat) ∨ (∃ n, i = .ecFan n ∧ 1 < n.toNat)) →
    exec i s = .next
      { s with
        phase := .idle
        status := { s.status with err := .invalidArgument, cause := .ok, done := false, busy := false } }

/-- The meaning of a command, taken after the acceptance effects of R73, leaves the EC (every byte of EC_RAM), the
inputs, the history, the requests, the settle counter and the schedule alone: no port and no handle is touched at
acceptance (R134, R152, R156, R202, R203, R209). The Accept event itself is recorded before it. -/
def Obligations.CommandsTouchNoDevice : Prop :=
  ∀ (i : Instr) (s t : State), exec i s = .next t →
    (∀ a, t.ec.byteAt a = s.ec.byteAt a) ∧ t.ec = s.ec ∧ t.hidOpen = s.hidOpen ∧ t.ecOpen = s.ecOpen ∧
    t.history = s.history ∧ t.outstanding = s.outstanding ∧ t.abandoned = s.abandoned ∧
    t.settleCnt = s.settleCnt ∧ t.sched = s.sched ∧ t.draws = s.draws

/-! The FSM. -/

/-- The BLOCK steps of a register write: the index-port write of SEQ[STEP].index in EC_IDX, the data-port write of
SEQ[STEP].value in EC_DAT; of the block only PHASE and the outstanding request change (R210, R212). -/
def Obligations.BlockIssuesIndexThenData : Prop :=
  ∀ (s : State) (rest : List Move), s.sched = .block :: rest →
    (s.phase = .ecIdx →
      ∃ e, step s = .next
        { s with
          sched := rest, outstanding := some (.port .index (s.seq[s.stepIx.toNat]).index), phase := .ecIdxWait
          ec := e }) ∧
    (s.phase = .ecDat →
      ∃ e, step s = .next
        { s with
          sched := rest, outstanding := some (.port .data (s.seq[s.stepIx.toNat]).value), phase := .ecDatWait
          ec := e })

/-- An OK answer: after the index-port write the data-port write is next; after the data-port write the settle counter
is loaded with SETTLE_US + 1 and the settle delay runs. The write is recorded (R211, R213, R93). A SETTLE_US below
EC_LATENCY_US leaves the EC state unknown (R304, R81), at once and however many ticks follow, as the model reads it
(notes/assumptions/9.md). -/
def Obligations.OkAnswerMovesOn : Prop :=
  ∀ (s : State) (b : Byte) (rest : List Move), s.sched = .portAnswer .ok :: rest →
    (s.phase = .ecIdxWait → s.outstanding = some (.port .index b) →
      ∃ e, step s = .next
        { s with
          sched := rest, outstanding := none, history := .portWrite .block .index b .ok :: s.history
          phase := .ecDat, ec := e }) ∧
    (s.phase = .ecDatWait → s.outstanding = some (.port .data b) →
      ∃ t e, step s = .next
        { s with
          sched := rest, outstanding := none, history := .portWrite .block .data b .ok :: s.history
          phase := .ecSettle, settleCnt := t, ec := e } ∧ t.toNat = s.settleUs.toNat + 1 ∧
        (s.settleUs.toNat < s.ec.latencyUs → EcUnknown e))

/-- A failed port write ends the command at once with RegisterWriteFailed: STATUS holds the answer and the place of
the write, SEQ keeps the sequence, nothing else is issued, and the EC state is unknown. STEP, SUBSEQ and NSUB are
undefined from here on (R218, R267, R270, R81, R49). -/
def Obligations.FailedWriteAbortsAndIsLocated : Prop :=
  ∀ (s : State) (p : Port) (b : Byte) (resp : Resp) (rest : List Move),
    s.sched = .portAnswer resp :: rest → resp ≠ .ok → s.outstanding = some (.port p b) →
    (s.phase = .ecIdxWait ∧ p = .index ∨ s.phase = .ecDatWait ∧ p = .data) →
    ∃ t : State, step s = .next t ∧ EcUnknown t.ec ∧
      t = { s with
        sched := rest, outstanding := none, history := .portWrite .block p b resp :: s.history, phase := .idle
        status := { s.status with
          err := .registerWriteFailed, cause := resp, done := false, busy := false
          failPhase := if p = .index then 0 else 1
          failSubseq := s.subseq, failStep := s.stepIx, failIndex := (s.seq[s.stepIx.toNat]).index }
        ec := t.ec, stepIx := t.stepIx, subseq := t.subseq, nsub := t.nsub, draws := t.draws }

/-- A tick is recorded in every phase; it lowers a nonzero SETTLE_CNT by one in EC_SETTLE and changes no other block
state (R214). -/
def Obligations.TickOnlyCountsTheSettleDelay : Prop :=
  ∀ (s : State) (rest : List Move), s.sched = .tick :: rest →
    ∃ t e, step s = .next { s with sched := rest, history := .tick :: s.history, settleCnt := t, ec := e } ∧
      t.toNat = if s.phase = .ecSettle then s.settleCnt.toNat - 1 else s.settleCnt.toNat

/-- With SETTLE_CNT at 0 the block goes on to the next pair, after the eighth to the next sub-sequence, and after the
last of these to completion (R215, R216, R217). With SETTLE_CNT above 0 the BLOCK has no step in the spec; that such a
move is used up without effect is the model's choice (notes/assumptions/1.md). -/
def Obligations.SettleEndAdvances : Prop :=
  ∀ (s : State) (rest : List Move), s.sched = .block :: rest → s.phase = .ecSettle →
    (s.settleCnt ≠ 0 → step s = .next { s with sched := rest }) ∧
    (s.settleCnt = 0 → s.stepIx ≠ 7 →
      step s = .next { s with sched := rest, stepIx := s.stepIx + 1, phase := .ecIdx }) ∧
    (s.settleCnt = 0 → s.stepIx = 7 → s.subseq.toNat + 1 < s.nsub.toNat →
      step s = .next
        { s with
          sched := rest, subseq := 1, stepIx := 0, phase := .ecIdx, seq := buildSeq s.pendT s.pendV
          status := { s.status with seqValid := true } }) ∧
    (s.settleCnt = 0 → s.stepIx = 7 → s.nsub.toNat ≤ s.subseq.toNat + 1 →
      ∃ k x n d, step s = .next
        { s with
          sched := rest, phase := .idle, status := { s.status with busy := false, done := true }
          stepIx := k, subseq := x, nsub := n, draws := d })

/-! The host's view, reset and the other agents. -/

/-- The host register map (R71): STATUS, SETTLE_US, FRAME and SEQ at their addresses, 0 everywhere else. -/
def Obligations.HostRegisterMap : Prop :=
  ∀ s : State,
    hostRead s 0x00 = statusWord s.status ∧
    (hostRead s 0x01).toNat = s.settleUs.toNat ∧
    (∀ (k : Nat) (h : k < 65), (hostRead s (BitVec.ofNat 8 (0x10 + k))).toNat = (s.frame[k]).toNat) ∧
    (∀ (k : Nat) (h : k < 8),
      (hostRead s (BitVec.ofNat 8 (0x60 + k))).toNat = (s.seq[k]).value.toNat * 256 + (s.seq[k]).index.toNat) ∧
    (∀ a : HostAddr,
      (2 ≤ a.toNat ∧ a.toNat ≤ 0x0F ∨ 0x51 ≤ a.toNat ∧ a.toNat ≤ 0x5F ∨ 0x68 ≤ a.toNat) → hostRead s a = 0)

/-- The fields of the STATUS word at their bits, the reserved bits 0, and the codes of the errors and of the causes
(R35, R262, R264). -/
def Obligations.StatusWordLayout : Prop :=
  ∀ st : Status,
    (statusWord st).extractLsb' 0 1 = BitVec.ofBool st.busy ∧
    (statusWord st).extractLsb' 1 1 = BitVec.ofBool st.done ∧
    (statusWord st).extractLsb' 2 1 = BitVec.ofBool st.frameValid ∧
    (statusWord st).extractLsb' 3 1 = BitVec.ofBool st.seqValid ∧
    (statusWord st).extractLsb' 4 4 =
      (match st.err with
        | .none => 0 | .invalidArgument => 1 | .deviceNotFound => 2 | .ioError => 3 | .registerWriteFailed => 4) ∧
    (statusWord st).extractLsb' 8 2 =
      (match st.cause with | .ok => 0 | .ioError => 1 | .permissionDenied => 2 | .deviceAbsent => 3) ∧
    (statusWord st).extractLsb' 10 1 = st.failPhase ∧
    (statusWord st).extractLsb' 11 1 = st.failSubseq ∧
    (statusWord st).extractLsb' 12 3 = st.failStep ∧
    (statusWord st).extractLsb' 15 1 = 0 ∧
    (statusWord st).extractLsb' 16 8 = st.failIndex ∧
    (statusWord st).extractLsb' 24 4 = st.lastOp ∧
    (statusWord st).extractLsb' 28 4 = 0

/-- A host read changes nothing in any phase, and what it returns depends on STATUS, SETTLE_US, FRAME and SEQ alone
(R72, R71). -/
def Obligations.HostReadsChangeNothing : Prop :=
  ∀ (s : State) (a : HostAddr) (rest : List Move), s.sched = .read a :: rest →
    step s = .next { s with sched := rest } ∧
    ∀ t : State, t.status = s.status → t.settleUs = s.settleUs → t.frame = s.frame → t.seq = s.seq →
      hostRead t a = hostRead s a

/-- The state right after reset; the EC state is unknown (R55). -/
def Obligations.ResetValues : Prop :=
  statusWord State.reset.status = 0x00000000 ∧ State.reset.settleUs = 5000 ∧
  State.reset.frame = Vector.replicate 65 0x00 ∧ State.reset.seq = Vector.replicate 8 ⟨0x00, 0x00⟩ ∧
  State.reset.phase = .idle ∧ State.reset.stepIx = 0 ∧ State.reset.subseq = 0 ∧ State.reset.nsub = 1 ∧
  State.reset.pendT = 0 ∧ State.reset.pendV = 0 ∧ State.reset.settleCnt = 0 ∧ State.reset.outstanding = none ∧
  EcUnknown State.reset.ec

/-- The reset input in any phase: every item of block state takes its reset value, an outstanding request is
abandoned, Reset is recorded, the inputs stay, and the EC state is unknown (R300, R301). -/
def Obligations.ResetInputResetsTheBlock : Prop :=
  ∀ (s : State) (rest : List Move), s.sched = .reset :: rest →
    ∃ e, EcUnknown e ∧ e.latencyUs = s.ec.latencyUs ∧
      step s = .next
        { status := Status.reset, settleUs := 5000, frame := Vector.replicate 65 0x00
          seq := Vector.replicate 8 ⟨0x00, 0x00⟩, phase := .idle, stepIx := 0, subseq := 0, nsub := 1
          pendT := 0, pendV := 0, settleCnt := 0, outstanding := none
          abandoned := s.abandoned ++ s.outstanding.toList
          hidOpen := s.hidOpen, ecOpen := s.ecOpen, history := .reset :: s.history, ec := e
          sched := rest, draws := s.draws }

/-- The answer to a request that a reset abandoned is recorded and changes no block state (R300); that such answers may
come in any order is the model's choice (notes/assumptions/12.md). -/
def Obligations.LateAnswerIsOnlyRecorded : Prop :=
  ∀ (s : State) (k : Nat) (resp : Resp) (rest : List Move) (q : Request),
    s.sched = .lateAnswer k resp :: rest → s.abandoned[k]? = some q →
    ∃ e, step s = .next
      { s with
        sched := rest, abandoned := s.abandoned.eraseIdx k, ec := e
        history :=
          (match q with | .hid f => .hidWrite f resp | .port p b => .portWrite .block p b resp) :: s.history }

/-- A FOREIGN port write is recorded and changes no block state; while an EC command is in progress it makes the
whole EC state unknown (R81, R90, R93). -/
def Obligations.ForeignWriteSpoilsARunningSequence : Prop :=
  ∀ (s : State) (p : Port) (b : Byte) (resp : Resp) (rest : List Move), s.sched = .foreignWrite p b resp :: rest →
    ∃ e, step s = .next
        { s with sched := rest, history := .portWrite .foreign p b resp :: s.history, ec := e } ∧
      (s.phase.isEc = true → EcUnknown e)

/-! The embedded controller. -/

/-- A clean delivery of `buildSeq(t, v)` by FOREIGN outside the EC phases, with at least EC_LATENCY_US + 1 ticks after
each data write, sets EC_RAM[t] = v, whatever was being delivered before (R79, R305). Where what was delivered before
is settled, no other byte changes; that point R79 marks as the spec's own. That a FOREIGN delivery outside the EC
phases counts like one of the block is the model's choice (notes/assumptions/11.md), and so is one step for a FOREIGN
write and its answer (notes/assumptions/14.md). -/
def Obligations.CleanForeignDeliveryCommits : Prop :=
  ∀ (s : State) (t v : Byte) (n : Nat) (rest : List Move),
    s.phase.isEc = false → s.ec.latencyUs + 1 ≤ n →
    s.sched = foreignMoves (buildSeq t v).toList n ++ rest →
    ∃ s', core.run (foreignMoves (buildSeq t v).toList n).length s = .next s' ∧
      s'.ec.known t = some v ∧ (s.ec.settled = true → ∀ a, a ≠ t → s'.ec.known a = s.ec.known a)

/-- Register writes of FOREIGN outside the EC phases that keep the gaps, with a trigger write among them or none,
leave EC_RAM unchanged where the latch is not cycled 0 to 1 on index 0x92 (R80, as the model reads it:
notes/assumptions/10.md, 11.md). The premise on `stale` is part of the block's invariant. -/
def Obligations.DeliveryWithoutLatchCycleIsIgnored : Prop :=
  ∀ (s : State) (ps : List Pair) (n : Nat) (rest : List Move),
    s.phase.isEc = false → s.ec.inProgress = false → (s.ec.stale = true → s.ec.ram = []) → s.ec.latencyUs + 1 ≤ n →
    latchCycled ps.reverse = false →
    s.sched = foreignMoves ps n ++ rest →
    ∃ s', core.run (foreignMoves ps n).length s = .next s' ∧ ∀ a, s'.ec.known a = s.ec.known a

/-- EC_RAM comes to hold a byte it did not hold only by a tick that ends an exact delivery of that byte, at least
EC_LATENCY_US + 1 ticks after its trigger write (R78, R79; that the EC acts on that tick is the model's reading,
notes/assumptions/10.md). -/
def Obligations.EcRamChangesOnlyByDelivery : Prop :=
  ∀ (s s' : State) (a v : Byte), step s = .next s' →
    Memory.read s'.ec.ram a = some v → Memory.read s.ec.ram a ≠ some v →
    (nextMove s).1 = .tick ∧ exactDelivery s.ec.pairs = some (a, v) ∧ s.ec.half = .none ∧
      s.ec.latencyUs ≤ s.ec.ticks

/-- What the EC counts as the delivery in progress is on record: its writes are the newest port writes of the
history, by one agent, each answered OK, and its gap is the ticks since. Every step keeps that (R79, R93; where a
delivery begins is the model's reading, notes/assumptions/8.md). -/
def Obligations.EveryStepKeepsDeliveryOnRecord : Prop :=
  ∀ s s' : State, DeliveryOnRecord s → step s = .next s' → DeliveryOnRecord s'

/-! The whole machine. -/

/-- No step faults or is refused: errors are result values (R260). -/
def Obligations.EveryStepAnswersAState : Prop :=
  ∀ s : State, ∃ s', step s = .next s'

/-- The invariants hold right after reset. -/
def Obligations.ResetMeetsTheInvariants : Prop :=
  Inv State.reset ∧ RunsItsSequence State.reset ∧ AnswersEveryCommand State.reset ∧
    SettleAccounted State.reset ∧ DeliveryOnRecord State.reset

/-- Every step, of every agent, keeps the block's invariant (R36 to R42, R45, R49, R51, R54, R81, R91, R118, R119,
R150, R161). -/
def Obligations.EveryStepKeepsTheInvariant : Prop :=
  ∀ s s' : State, Inv s → step s = .next s' → Inv s'

/-- Every step keeps that a running EC command runs the sequences its opcode names, in their order
(R204 to R208, R216, R222, R306). -/
def Obligations.EveryStepKeepsTheCommandsSequence : Prop :=
  ∀ s s' : State, RunsItsSequence s → step s = .next s' → RunsItsSequence s'

/-- Every accepted command ends in success or in an error: an idle block that shows neither has accepted nothing
since reset, and every step keeps that (R272). -/
def Obligations.EveryCommandIsAnswered : Prop :=
  ∀ s s' : State, Inv s → AnswersEveryCommand s → step s = .next s' → AnswersEveryCommand s'

/-- The timing guarantee: every step but the late answer to an abandoned request keeps the account of ticks, so the
block leaves EC_SETTLE only when at least SETTLE_US + 1 ticks have been recorded since the data write's OK (R220). A late
answer is recorded like a data write of the block and would hide the true one (notes/assumptions/12.md). -/
def Obligations.SettleDelayIsNeverShort : Prop :=
  ∀ s s' : State, SettleAccounted s → (∀ k resp, (nextMove s).1 ≠ .lateAnswer k resp) → step s = .next s' →
    SettleAccounted s' ∧
      (s.phase = .ecSettle → (s'.phase = .ecIdx ∨ s'.status.done = true ∧ s.status.done = false) →
        s.settleUs.toNat + 1 ≤ ticksSinceData s'.history)

/-- Only CFG.SETTLE and reset change SETTLE_US (R45), and only reset clears SEQ_VALID (R39). -/
def Obligations.SettleUsAndSeqValidHaveTheirWriters : Prop :=
  ∀ s s' : State, step s = .next s' →
    (s'.settleUs ≠ s.settleUs →
      (nextMove s).1 = .reset ∨
        ∃ w, (nextMove s).1 = .issue w ∧ decode w = .ok (.cfgSettle s'.settleUs) ∧ s.phase = .idle) ∧
    (s.status.seqValid = true → s'.status.seqValid = false → (nextMove s).1 = .reset)

/-- Only the acceptance of a word with a framer opcode and reset change FRAME or FRAME_VALID; where FRAME changes and
it is no reset, FRAME_VALID is 1 after the step, so a refused build leaves FRAME (R38, R46, R161). -/
def Obligations.OnlyBuildsWriteTheFrame : Prop :=
  ∀ s s' : State, step s = .next s' →
    ((s'.status.frameValid ≠ s.status.frameValid ∨ s'.frame ≠ s.frame) →
      (nextMove s).1 = .reset ∨ ∃ w, (nextMove s).1 = .issue w ∧ w.op ∈ [0x1, 0x2, 0x3] ∧ s.phase = .idle) ∧
    (s'.frame ≠ s.frame → (nextMove s).1 ≠ .reset → s'.status.frameValid = true)

/-- Progress: no quiet move takes a busy block further from its end, and in every busy phase some quiet move takes it
nearer: a block step, an answer or a tick is all it waits for (R312, R315). -/
def Obligations.BusyBlockCanAlwaysProgress : Prop :=
  ∀ s : State, Inv s → s.phase ≠ .idle →
    (∀ m s', quiet m = true → act m s = .next s' → distance s' ≤ distance s) ∧
    ∃ m s', quiet m = true ∧ act m s = .next s' ∧ distance s' < distance s

/-- EC.EXEC, EC.PERF and EC.FAN, every write answered OK and SETTLE_US + 1 ticks after each pair, complete: 41 moves
that are not ticks and 8 x (SETTLE_US + 1) ticks (R204, R205, R206, R312). -/
def Obligations.SingleSequencesCompleteInTheirSteps : Prop :=
  ∀ (s : State) (i : Instr) (t v : Byte) (rest : List Move), RunsOne i t v → s.phase = .idle → s.ecOpen = true →
    s.sched = .issue (encode i) :: (sequenceMoves 8 (s.settleUs.toNat + 1) ++ rest) →
    ∃ s', core.run (41 + 8 * (s.settleUs.toNat + 1)) s = .next s' ∧ s'.sched = rest ∧ s'.phase = .idle ∧
      s'.status.done = true ∧ s'.status.busy = false ∧ s'.status.err = .none ∧ s'.seq = buildSeq t v

/-- EC.MAXON and EC.MAXOFF, every write answered OK and SETTLE_US + 1 ticks after each pair, complete: 81 moves that
are not ticks and 16 x (SETTLE_US + 1) ticks (R207, R208, R216, R312). -/
def Obligations.CompositesCompleteInTheirSteps : Prop :=
  ∀ (s : State) (i : Instr) (rest : List Move), i = .ecMaxon ∨ i = .ecMaxoff → s.phase = .idle → s.ecOpen = true →
    s.sched = .issue (encode i) :: (sequenceMoves 16 (s.settleUs.toNat + 1) ++ rest) →
    ∃ s', core.run (81 + 16 * (s.settleUs.toNat + 1)) s = .next s' ∧ s'.sched = rest ∧ s'.phase = .idle ∧
      s'.status.done = true ∧ s'.status.busy = false ∧ s'.status.err = .none ∧ s'.seq = compositeSeq i.opcode 1

/-- However the answers, the ticks and the block's steps fall, an EC.EXEC that ends with DONE has made exactly its 16
port writes, in order, each answered OK. Its moves are quiet: no other command, no reset, no write by FOREIGN and no
late answer (R221). -/
def Obligations.CompletedExecMadeItsSixteenWrites : Prop :=
  ∀ (s s' : State) (t v : Byte) (ms rest : List Move), s.phase = .idle → (∀ m ∈ ms, quiet m = true) →
    s.sched = .issue (encode (.ecExec t v)) :: (ms ++ rest) →
    core.run (ms.length + 1) s = .next s' → s'.status.done = true →
    blockWrites s'.history = (okWrites (buildSeq t v).toList).reverse ++ blockWrites s.history

/-- An EC.EXEC, EC.PERF or EC.FAN that ends with DONE, on quiet moves and with SETTLE_US at least EC_LATENCY_US,
leaves EC_RAM[t] = v, whatever was being delivered at its acceptance (R79, R221, R304). Where that was settled
(nothing, or register writes without a cycle of the latch after their gap; notes/assumptions/10.md), every other byte
is as it was; that point R79 marks as the spec's own. -/
def Obligations.CompletedSequenceSetsEcRam : Prop :=
  ∀ (s s' : State) (i : Instr) (t v : Byte) (ms rest : List Move), RunsOne i t v →
    s.phase = .idle → (∀ m ∈ ms, quiet m = true) → s.ec.latencyUs ≤ s.settleUs.toNat →
    s.sched = .issue (encode i) :: (ms ++ rest) →
    core.run (ms.length + 1) s = .next s' → s'.status.done = true →
    s'.ec.known t = some v ∧ (s.ec.settled = true → ∀ a, a ≠ t → s'.ec.known a = s.ec.known a)

/-- An EC.MAXON or EC.MAXOFF that ends with DONE, on quiet moves, has made exactly the 32 port writes of its two
sequences, in order, each answered OK. With SETTLE_US at least EC_LATENCY_US it has committed both registers, whatever
was being delivered at its acceptance: EC_RAM[0x40] = 2 and EC_RAM[0x41] = 1 after EC.MAXON, EC_RAM[0x41] = 0 and
EC_RAM[0x40] = 1 after EC.MAXOFF; and the first of the two stood committed when only the first sequence's writes had
been made (R222). Where what was being delivered at acceptance was settled (notes/assumptions/10.md), every other byte
is as it was; that point R79 marks as the spec's own. -/
def Obligations.CompletedCompositeSetsBothRegisters : Prop :=
  ∀ (s s' : State) (i : Instr) (ms rest : List Move), i = .ecMaxon ∨ i = .ecMaxoff →
    s.phase = .idle → (∀ m ∈ ms, quiet m = true) →
    s.sched = .issue (encode i) :: (ms ++ rest) →
    core.run (ms.length + 1) s = .next s' → s'.status.done = true →
    blockWrites s'.history =
      (okWrites ((compositeSeq i.opcode 0).toList ++ (compositeSeq i.opcode 1).toList)).reverse ++
        blockWrites s.history ∧
    (s.ec.latencyUs ≤ s.settleUs.toNat →
      (i = .ecMaxon → s'.ec.known 0x40 = some 2 ∧ s'.ec.known 0x41 = some 1) ∧
      (i = .ecMaxoff → s'.ec.known 0x41 = some 0 ∧ s'.ec.known 0x40 = some 1) ∧
      (∃ k u, k ≤ ms.length + 1 ∧ core.run k s = .next u ∧
        blockWrites u.history = (okWrites (compositeSeq i.opcode 0).toList).reverse ++ blockWrites s.history ∧
        (if i = .ecMaxon then u.ec.known 0x40 = some 2 else u.ec.known 0x41 = some 0)) ∧
      (s.ec.settled = true → ∀ a, a ≠ 0x40 → a ≠ 0x41 → s'.ec.known a = s.ec.known a))

/-- A caller that opens or closes a handle changes that input alone (R52). Once a command runs, no step but the
caller's own depends on either input: whatever their values, the step does the same (R265, R310). -/
def Obligations.InputsAreSampledAtAcceptanceOnly : Prop :=
  (∀ (s : State) (v : Bool) (rest : List Move),
    (s.sched = .setHidOpen v :: rest → step s = .next { s with sched := rest, hidOpen := v }) ∧
    (s.sched = .setEcOpen v :: rest → step s = .next { s with sched := rest, ecOpen := v })) ∧
  ∀ (s s' : State) (hid ec : Bool), s.phase ≠ .idle →
    (∀ v, (nextMove s).1 ≠ .setHidOpen v ∧ (nextMove s).1 ≠ .setEcOpen v) → step s = .next s' →
    step { s with hidOpen := hid, ecOpen := ec } = .next { s' with hidOpen := hid, ecOpen := ec }
end

