-- ==== Sys2Proof/Laws/Decode.lean ====
section
/-! SUPPORT. The fields of a command word built from its fields (spec/30_encoding.md R110), and the masks of the
opcode table in terms of the fields. -/

namespace Sys2Proof

section
variable (op : BitVec 4) (a b c d e f : Byte)

@[simp] theorem cmdWord_op : CmdWord.op (cmdWord op a b c d e f) = op := by
  unfold cmdWord CmdWord.op
  ext k hk
  simp (disch := omega) [decide_eq_true]

@[simp] theorem cmdWord_rsv0 : CmdWord.rsv0 (cmdWord op a b c d e f) = 0 := by
  unfold cmdWord CmdWord.rsv0
  ext k hk
  simp (disch := omega) [decide_eq_true]

@[simp] theorem cmdWord_fieldA : CmdWord.fieldA (cmdWord op a b c d e f) = a := by
  unfold cmdWord CmdWord.fieldA
  ext k hk
  simp (disch := omega) [BitVec.getLsbD_of_ge, decide_eq_true, BitVec.getLsbD_eq_getElem]

@[simp] theorem cmdWord_fieldB : CmdWord.fieldB (cmdWord op a b c d e f) = b := by
  unfold cmdWord CmdWord.fieldB
  ext k hk
  simp (disch := omega) [BitVec.getLsbD_of_ge, decide_eq_true, decide_eq_false, BitVec.getLsbD_eq_getElem]

@[simp] theorem cmdWord_fieldC : CmdWord.fieldC (cmdWord op a b c d e f) = c := by
  unfold cmdWord CmdWord.fieldC
  ext k hk
  simp (disch := omega) [BitVec.getLsbD_of_ge, decide_eq_true, decide_eq_false, BitVec.getLsbD_eq_getElem]

@[simp] theorem cmdWord_fieldD : CmdWord.fieldD (cmdWord op a b c d e f) = d := by
  unfold cmdWord CmdWord.fieldD
  ext k hk
  simp (disch := omega) [BitVec.getLsbD_of_ge, decide_eq_true, decide_eq_false, BitVec.getLsbD_eq_getElem]

@[simp] theorem cmdWord_fieldE : CmdWord.fieldE (cmdWord op a b c d e f) = e := by
  unfold cmdWord CmdWord.fieldE
  ext k hk
  simp (disch := omega) [BitVec.getLsbD_of_ge, decide_eq_true, decide_eq_false, BitVec.getLsbD_eq_getElem]

@[simp] theorem cmdWord_fieldF : CmdWord.fieldF (cmdWord op a b c d e f) = f := by
  unfold cmdWord CmdWord.fieldF
  ext k hk
  simp (disch := omega) [BitVec.getLsbD_of_ge, decide_eq_false]

@[simp] theorem cmdWord_rsv1 : CmdWord.rsv1 (cmdWord op a b c d e f) = 0 := by
  unfold cmdWord CmdWord.rsv1
  ext k hk
  simp (disch := omega) [BitVec.getLsbD_of_ge]

@[simp] theorem cmdWord_hasReservedBits : CmdWord.hasReservedBits (cmdWord op a b c d e f) = false := by
  simp [CmdWord.hasReservedBits]
end

/-- CFG.SETTLE's operand from its two bytes (R115). -/
@[simp] theorem settleOperand_bytes (us : Micros) :
    settleOperand (us.extractLsb' 8 8) (us.extractLsb' 0 8) = us := by
  unfold settleOperand
  ext k hk
  by_cases h : k < 8 <;> simp (disch := omega) [h, BitVec.getLsbD_eq_getElem]

theorem hasReservedBits_eq_false (w : CmdWord) : w.hasReservedBits = false ↔ w.rsv0 = 0 ∧ w.rsv1 = 0 := by
  simp [CmdWord.hasReservedBits]

/-- The mask of a valid opcode's row (R113) keeps OP and the reserved fields. -/
theorem and_validMask (w : CmdWord) :
    w &&& (0xFF000000000000FF : CmdWord) =
      w.op.setWidth 64 ||| w.rsv0.setWidth 64 <<< 4 ||| w.rsv1.setWidth 64 <<< 56 := by
  ext k hk
  unfold CmdWord.op CmdWord.rsv0 CmdWord.rsv1
  interval_cases k <;> simp [BitVec.getLsbD_eq_getElem]

/-- The mask of a reserved opcode's row keeps OP alone (R134). -/
theorem and_opMask (w : CmdWord) : w &&& (0x000000000000000F : CmdWord) = w.op.setWidth 64 := by
  ext k hk
  unfold CmdWord.op
  interval_cases k <;> simp [BitVec.getLsbD_eq_getElem]

/-- The command a word decodes to has the word's opcode (R113). -/
theorem opcode_of_decode {w : CmdWord} {i : Instr} (h : decode w = .ok i) : i.opcode = w.op := by
  have hw := w.op.isLt
  apply BitVec.eq_of_toNat_eq
  unfold decode at h
  generalize w.op.toNat = n at *
  cases hr : w.hasReservedBits <;> interval_cases n <;> simp [hr] at h <;> subst h <;> rfl

end Sys2Proof
end

