-- ==== Sys2Proof/Laws/Memory.lean ====
section
/-! SUPPORT. The laws of the known part of EC_RAM: reading after writing, and the canonical form. -/

namespace Sys2Proof.Machine

@[simp] theorem Memory.read_nil (a : Byte) : Memory.read [] a = none := rfl

theorem Memory.read_write_same (m : Memory) (a b : Byte) : Memory.read (Memory.write m a b) a = some b := by
  induction m with
  | nil => simp [Memory.write, Memory.read]
  | cons c rest ih =>
    unfold Memory.write
    split
    · simp [Memory.read]
    · split
      · simp [Memory.read]
      · rename_i h1 h2
        simp [Memory.read, Ne.symm h2, ih]

theorem Memory.read_write_other (m : Memory) (a b a' : Byte) (h : a' ≠ a) :
    Memory.read (Memory.write m a b) a' = Memory.read m a' := by
  have hn : ¬ a.toNat = a'.toNat := fun e => h (BitVec.eq_of_toNat_eq e.symm)
  induction m with
  | nil => simp [Memory.write, Memory.read, hn, Memory.unlisted]
  | cons c rest ih =>
    unfold Memory.write
    split
    · simp [Memory.read, hn]
    · split
      · rename_i h1 h2
        simp [Memory.read, hn, h2 ▸ hn]
      · simp [Memory.read, ih]

theorem Memory.risesFrom_write (m : Memory) (a b : Byte) (lo : Nat) (hlo : lo ≤ a.toNat)
    (h : Memory.risesFrom lo m = true) : Memory.risesFrom lo (Memory.write m a b) = true := by
  have ha := a.isLt
  induction m generalizing lo with
  | nil => simp [Memory.write, Memory.risesFrom, hlo, ha]
  | cons c rest ih =>
    simp only [Memory.risesFrom, Bool.and_eq_true, decide_eq_true_eq] at h
    unfold Memory.write
    split
    · rename_i h1
      simp only [Memory.risesFrom, Bool.and_eq_true, decide_eq_true_eq]
      exact ⟨⟨hlo, ha⟩, ⟨⟨h1, h.1.2⟩, h.2⟩⟩
    · split
      · rename_i h1 h2
        simp only [Memory.risesFrom, Bool.and_eq_true, decide_eq_true_eq]
        exact ⟨⟨hlo, ha⟩, h2 ▸ h.2⟩
      · simp only [Memory.risesFrom, Bool.and_eq_true, decide_eq_true_eq]
        exact ⟨h.1, ih _ (by omega) h.2⟩

/-- The empty memory, nothing known, is in canonical form. -/
theorem Memory.wf_nil : Memory.wf [] = true := rfl

/-- Every write keeps the canonical form. -/
theorem Memory.wf_write (m : Memory) (a b : Byte) (h : Memory.wf m = true) : Memory.wf (Memory.write m a b) = true :=
  Memory.risesFrom_write m a b 0 (Nat.zero_le _) h

end Sys2Proof.Machine
end

