-- ==== Sys2Proof/Laws/Ec.lean ====
section
/-! SUPPORT. What each operation of the embedded controller (Machine/Ec.lean) can do. -/

namespace Sys2Proof.Machine

section
variable (e : Ec)
@[simp] theorem forget_ram : e.forget.ram = [] := rfl
@[simp] theorem forget_ramDraw : e.forget.ramDraw = e.draws + 1 := rfl
@[simp] theorem forget_draws : e.forget.draws = e.draws + 1 := rfl
@[simp] theorem forget_latch : e.forget.latch = none := rfl
@[simp] theorem forget_pendAddr : e.forget.pendAddr = none := rfl
@[simp] theorem forget_pendVal : e.forget.pendVal = none := rfl
@[simp] theorem forget_owner : e.forget.owner = e.owner := rfl
@[simp] theorem forget_pairs : e.forget.pairs = [] := rfl
@[simp] theorem forget_half : e.forget.half = .none := rfl
@[simp] theorem forget_ticks : e.forget.ticks = 0 := rfl
@[simp] theorem forget_stale : e.forget.stale = true := rfl
@[simp] theorem forget_latencyUs : e.forget.latencyUs = e.latencyUs := rfl

theorem inProgress_eq_false : e.inProgress = false ↔ e.pairs = [] ∧ e.half = .none := by
  simp [Ec.inProgress, List.isEmpty_iff]

@[simp] theorem forget_inProgress : e.forget.inProgress = false := by simp [inProgress_eq_false]

theorem settled_of_idle {e : Ec} (h : e.inProgress = false) : e.settled = true := by simp [Ec.settled, h]

@[simp] theorem forget_settled : e.forget.settled = true := settled_of_idle (forget_inProgress e)

@[simp] theorem forget_known (a : Byte) : e.forget.known a = none := by
  simp [Ec.known]

theorem known_of_settled {e : Ec} (h : e.settled = true) (a : Byte) : e.known a = Memory.read e.ram a := by
  simp [Ec.known, h]

theorem known_of_not_settled {e : Ec} (h : e.settled = false) (a : Byte) : e.known a = none := by
  simp [Ec.known, h, Memory.unlisted]

/-- Settled in the middle of a delivery: the gap has passed and the latch was not cycled (R80). -/
theorem settled_iff_of_inProgress {e : Ec} (h : e.inProgress = true) :
    e.settled = true ↔
      e.half = .none ∧ e.latencyUs + 1 ≤ e.ticks ∧ latchCycled e.pairs = false ∧ e.stale = false := by
  simp [Ec.settled, h, and_assoc]
end

section
variable (e : Ec) (t v : Byte)

@[simp] theorem commit_latch : (e.commit t v).latch = some true := rfl
@[simp] theorem commit_pendAddr : (e.commit t v).pendAddr = some t := rfl
@[simp] theorem commit_pendVal : (e.commit t v).pendVal = some v := rfl
@[simp] theorem commit_pairs : (e.commit t v).pairs = [] := rfl
@[simp] theorem commit_stale : (e.commit t v).stale = false := rfl
@[simp] theorem commit_owner : (e.commit t v).owner = e.owner := by simp only [Ec.commit]; split <;> rfl
@[simp] theorem commit_latencyUs : (e.commit t v).latencyUs = e.latencyUs := by simp only [Ec.commit]; split <;> rfl

theorem commit_half (h : e.half = .none) : (e.commit t v).half = .none := by
  simp only [Ec.commit]; split <;> simp [h]

/-- What a commit writes: to EC_RAM as it was, or to a wholly unknown one. -/
theorem commit_ram : (e.commit t v).ram = Memory.write e.ram t v ∨ (e.commit t v).ram = Memory.write [] t v := by
  simp only [Ec.commit]; split <;> simp

/-- With no cycle of the latch before the eight register writes, the commit keeps every other byte (R79). -/
theorem commit_ram_of_uncycled (h : latchCycled (e.pairs.drop 8) = false) :
    (e.commit t v).ram = Memory.write e.ram t v := by
  simp [Ec.commit, h]

/-- The committed byte is known (R79). -/
theorem commit_known (h : e.half = .none) : (e.commit t v).known t = some v := by
  have hs : (e.commit t v).settled = true :=
    settled_of_idle ((inProgress_eq_false _).2 ⟨rfl, commit_half e t v h⟩)
  rw [known_of_settled hs]
  obtain h | h := commit_ram e t v <;> rw [h, Memory.read_write_same]
end

section
variable (e : Ec) (who : Writer) (b : Byte)

/-- What the issue of an index-port write leaves: the agent begins a register write. Its own delivery goes on after the
gap, or another agent's settled register writes are done with, or all is unknown. -/
theorem issueIndex_cases :
    (e.owner = who ∧ e.half = .none ∧ (e.pairs = [] ∨ e.latencyUs + 1 ≤ e.ticks) ∧
      e.issueIndex who = { e with half := .indexIssued, draws := e.draws + 1 }) ∨
    (e.owner ≠ who ∧ e.half = .none ∧ e.settled = true ∧
      e.issueIndex who = { e with pairs := [], owner := who, half := .indexIssued, draws := e.draws + 1 }) ∨
    e.issueIndex who = { e.forget with owner := who, half := .indexIssued, draws := e.draws + 2 } := by
  simp only [Ec.issueIndex]
  split
  · exact .inr (.inr rfl)
  · rename_i hg
    have hg : e.half = .none ∧ (e.pairs = [] ∨ e.latencyUs + 1 ≤ e.ticks) := by
      cases hp : e.inProgress
      · obtain ⟨h1, h2⟩ := (inProgress_eq_false e).1 hp
        exact ⟨h2, .inl h1⟩
      · simp only [hp, Bool.true_and, Bool.not_eq_true', Bool.not_eq_false, Bool.and_eq_true,
          decide_eq_true_eq] at hg
        exact ⟨hg.1, .inr hg.2⟩
    split
    · rename_i ho
      exact .inl ⟨ho, hg.1, hg.2, by subst ho; rfl⟩
    · rename_i ho
      split
      · rename_i hs; exact .inr (.inl ⟨ho, hg.1, hs, rfl⟩)
      · exact .inr (.inr rfl)

theorem issueIndex_ram : (e.issueIndex who).ram = e.ram ∨ (e.issueIndex who).ram = [] := by
  obtain ⟨_, _, _, h⟩ | ⟨_, _, _, h⟩ | h := issueIndex_cases e who <;> simp [h]

theorem indexOk_ram : (e.indexOk who b).ram = e.ram ∨ (e.indexOk who b).ram = [] := by
  simp only [Ec.indexOk]; split <;> simp

theorem issueData_ram : (e.issueData who).ram = e.ram ∨ (e.issueData who).ram = [] := by
  unfold Ec.issueData
  split
  · split <;> simp
  · simp

theorem dataOk_ram : (e.dataOk who b).ram = e.ram ∨ (e.dataOk who b).ram = [] := by
  unfold Ec.dataOk
  split
  · split <;> simp [Ec.pairDone]
  · simp

theorem deliveryEnds_ram :
    (∃ t v, exactDelivery e.pairs = some (t, v) ∧
        (e.deliveryEnds.ram = Memory.write e.ram t v ∨ e.deliveryEnds.ram = Memory.write [] t v)) ∨
      e.deliveryEnds.ram = e.ram ∨ e.deliveryEnds.ram = [] := by
  unfold Ec.deliveryEnds
  split
  · rename_i t v h
    exact .inl ⟨t, v, h, commit_ram e t v⟩
  · split <;> simp

/-- EC_RAM after a tick: a byte is committed only when a triggered, exact delivery ends
(spec/20_memory.md R79). -/
theorem tick_ram :
    (∃ t v, exactDelivery e.pairs = some (t, v) ∧ e.half = .none ∧ e.latencyUs ≤ e.ticks ∧
      (e.tick.ram = Memory.write e.ram t v ∨ e.tick.ram = Memory.write [] t v)) ∨
      e.tick.ram = e.ram ∨ e.tick.ram = [] := by
  simp only [Ec.tick]
  split
  · rename_i h
    simp only [Ec.triggered, Bool.and_eq_true, decide_eq_true_eq] at h
    obtain ⟨t, v, h1, h2⟩ | h1 := deliveryEnds_ram { e with ticks := e.ticks + 1 }
    · exact .inl ⟨t, v, h1, h.1.1, by omega, h2⟩
    · exact .inr h1
  · simp

theorem foreignWrite_ram (p : Port) (r : Resp) :
    (e.foreignWrite p b r).ram = e.ram ∨ (e.foreignWrite p b r).ram = [] := by
  unfold Ec.foreignWrite
  split
  · cases p with
    | index =>
      obtain h | h := indexOk_ram (e.issueIndex .foreign) .foreign b
      · rw [h]; exact issueIndex_ram e .foreign
      · exact .inr h
    | data =>
      obtain h | h := dataOk_ram (e.issueData .foreign) .foreign b
      · rw [h]; exact issueData_ram e .foreign
      · exact .inr h
  · simp

end

/-- EC_LATENCY_US is fixed for the machine. -/
@[simp] theorem issueIndex_latencyUs (e : Ec) (who : Writer) : (e.issueIndex who).latencyUs = e.latencyUs := by
  obtain ⟨_, _, _, h⟩ | ⟨_, _, _, h⟩ | h := issueIndex_cases e who <;> simp [h]
@[simp] theorem indexOk_latencyUs (e : Ec) (who : Writer) (b : Byte) : (e.indexOk who b).latencyUs = e.latencyUs := by
  simp only [Ec.indexOk]; split <;> rfl
@[simp] theorem issueData_latencyUs (e : Ec) (who : Writer) : (e.issueData who).latencyUs = e.latencyUs := by
  unfold Ec.issueData; split
  · split <;> rfl
  · rfl
@[simp] theorem dataOk_latencyUs (e : Ec) (who : Writer) (b : Byte) : (e.dataOk who b).latencyUs = e.latencyUs := by
  unfold Ec.dataOk; split
  · split <;> rfl
  · rfl
@[simp] theorem tick_latencyUs (e : Ec) : e.tick.latencyUs = e.latencyUs := by
  simp only [Ec.tick]; split
  · unfold Ec.deliveryEnds; split
    · simp
    · split <;> rfl
  · rfl
@[simp] theorem foreignWrite_latencyUs (e : Ec) (p : Port) (b : Byte) (r : Resp) :
    (e.foreignWrite p b r).latencyUs = e.latencyUs := by
  unfold Ec.foreignWrite; split
  · cases p <;> simp
  · rfl

/-! Register writes that were cut off leave no byte of EC_RAM known until a clean delivery ends (R81). -/

section
variable {e : Ec} (h : e.stale = true → e.ram = [])
include h

theorem issueIndex_stale (who : Writer) : (e.issueIndex who).stale = true → (e.issueIndex who).ram = [] := by
  obtain ⟨_, _, _, h'⟩ | ⟨_, _, _, h'⟩ | h' := issueIndex_cases e who <;> rw [h']
  · exact h
  · exact h
  · exact fun _ => rfl

theorem indexOk_stale (who : Writer) (b : Byte) : (e.indexOk who b).stale = true → (e.indexOk who b).ram = [] := by
  simp only [Ec.indexOk]; split
  · exact h
  · exact fun _ => rfl

theorem issueData_stale (who : Writer) : (e.issueData who).stale = true → (e.issueData who).ram = [] := by
  unfold Ec.issueData; split
  · split
    · exact h
    · exact fun _ => rfl
  · exact fun _ => rfl

theorem dataOk_stale (who : Writer) (b : Byte) : (e.dataOk who b).stale = true → (e.dataOk who b).ram = [] := by
  unfold Ec.dataOk; split
  · split
    · exact h
    · exact fun _ => rfl
  · exact fun _ => rfl

theorem tick_stale : e.tick.stale = true → e.tick.ram = [] := by
  simp only [Ec.tick]; split
  · unfold Ec.deliveryEnds; split
    · exact fun h' => absurd h' (by simp)
    · split
      · exact fun _ => rfl
      · exact h
  · exact h

theorem foreignWrite_stale (p : Port) (b : Byte) (r : Resp) :
    (e.foreignWrite p b r).stale = true → (e.foreignWrite p b r).ram = [] := by
  unfold Ec.foreignWrite; split
  · cases p with
    | index => exact indexOk_stale (issueIndex_stale h .foreign) .foreign b
    | data => exact dataOk_stale (issueData_stale h .foreign) .foreign b
  · exact fun _ => rfl
end

end Sys2Proof.Machine
end

