-- ==== Sys2Proof/Laws/Frame.lean ====
section
/-! SUPPORT. The frames the builders make: their bytes, their checksum, and that they are sealed
(spec/30_encoding.md R117 to R119, spec/40_framer.md R150, R151). -/

namespace Sys2Proof.Machine

open Sys2Proof.Safety

/-- The checksum of a colour frame before its trailer is written (R151). -/
theorem cksum_colour (byte1 length red green blue brightness : Byte) :
    cksum ((((((blankFrame.set 1 byte1).set 2 length).set 7 red).set 8 green).set 9 blue).set 10 brightness) =
      byte1 + length + red + green + blue + brightness := by
  have h : ((((((blankFrame.set 1 byte1).set 2 length).set 7 red).set 8 green).set 9 blue).set 10 brightness).toList =
      [6, byte1, length, 0, 0, 0, 0, red, green, blue, brightness] ++ List.replicate 54 0 := rfl
  unfold cksum
  rw [h]
  apply BitVec.eq_of_toNat_eq
  simp [Config.cksumRange, List.replicate, Nat.add_assoc]

/-- A colour frame, byte by byte (R117). -/
theorem colourFrame_byte (byte1 length red green blue brightness : Byte) (k : Nat) (h : k < 65) :
    (colourFrame byte1 length red green blue brightness)[k] =
      frameByte byte1 length red green blue brightness k := by
  unfold colourFrame sealFrame
  rw [cksum_colour]
  interval_cases k <;> rfl

/-- A performance frame is the colour frame with every other field 0 (R117). -/
theorem perfFrame_eq (perf : Byte) : perfFrame perf = colourFrame perf 0 0 0 0 0 := rfl

/-- Every frame the builders make is sealed. -/
theorem colourFrame_sealed (byte1 length red green blue brightness : Byte) :
    Sealed (colourFrame byte1 length red green blue brightness) where
  reportId := by rw [colourFrame_byte]; rfl
  reservedLow i h h1 h2 := by rw [colourFrame_byte]; interval_cases i <;> rfl
  reservedHigh i h h1 h2 := by rw [colourFrame_byte]; interval_cases i <;> rfl
  trailer := by
    have h : cksum (colourFrame byte1 length red green blue brightness) =
        cksum ((((((blankFrame.set 1 byte1).set 2 length).set 7 red).set 8 green).set 9 blue).set 10 brightness) :=
      rfl
    rw [h, cksum_colour, colourFrame_byte]
    rfl
  unused := by rw [colourFrame_byte]; rfl

end Sys2Proof.Machine
end

