-- ==== Sys2Proof/Laws/State.lean ====
section
/-! SUPPORT. What each shared operation of Machine/Ops.lean does to each field of State, one lemma a field, so
that no later proof unfolds a record update. -/

namespace Sys2Proof.Machine

variable (s : State)

@[simp] theorem record_status (e : Event) : (record e s).status = s.status := rfl
@[simp] theorem record_settleUs (e : Event) : (record e s).settleUs = s.settleUs := rfl
@[simp] theorem record_frame (e : Event) : (record e s).frame = s.frame := rfl
@[simp] theorem record_seq (e : Event) : (record e s).seq = s.seq := rfl
@[simp] theorem record_phase (e : Event) : (record e s).phase = s.phase := rfl
@[simp] theorem record_stepIx (e : Event) : (record e s).stepIx = s.stepIx := rfl
@[simp] theorem record_subseq (e : Event) : (record e s).subseq = s.subseq := rfl
@[simp] theorem record_nsub (e : Event) : (record e s).nsub = s.nsub := rfl
@[simp] theorem record_pendT (e : Event) : (record e s).pendT = s.pendT := rfl
@[simp] theorem record_pendV (e : Event) : (record e s).pendV = s.pendV := rfl
@[simp] theorem record_settleCnt (e : Event) : (record e s).settleCnt = s.settleCnt := rfl
@[simp] theorem record_outstanding (e : Event) : (record e s).outstanding = s.outstanding := rfl
@[simp] theorem record_abandoned (e : Event) : (record e s).abandoned = s.abandoned := rfl
@[simp] theorem record_hidOpen (e : Event) : (record e s).hidOpen = s.hidOpen := rfl
@[simp] theorem record_ecOpen (e : Event) : (record e s).ecOpen = s.ecOpen := rfl
@[simp] theorem record_history (e : Event) : (record e s).history = e :: s.history := rfl
@[simp] theorem record_ec (e : Event) : (record e s).ec = s.ec := rfl
@[simp] theorem record_sched (e : Event) : (record e s).sched = s.sched := rfl
@[simp] theorem record_draws (e : Event) : (record e s).draws = s.draws := rfl

@[simp] theorem accept_status (w : CmdWord) : (accept w s).status = { s.status with lastOp := w.op, done := false, err := .none, cause := .ok, failPhase := 0, failSubseq := 0, failStep := 0, failIndex := 0 } := rfl
@[simp] theorem accept_settleUs (w : CmdWord) : (accept w s).settleUs = s.settleUs := rfl
@[simp] theorem accept_frame (w : CmdWord) : (accept w s).frame = s.frame := rfl
@[simp] theorem accept_seq (w : CmdWord) : (accept w s).seq = s.seq := rfl
@[simp] theorem accept_phase (w : CmdWord) : (accept w s).phase = s.phase := rfl
@[simp] theorem accept_stepIx (w : CmdWord) : (accept w s).stepIx = s.stepIx := rfl
@[simp] theorem accept_subseq (w : CmdWord) : (accept w s).subseq = s.subseq := rfl
@[simp] theorem accept_nsub (w : CmdWord) : (accept w s).nsub = s.nsub := rfl
@[simp] theorem accept_pendT (w : CmdWord) : (accept w s).pendT = s.pendT := rfl
@[simp] theorem accept_pendV (w : CmdWord) : (accept w s).pendV = s.pendV := rfl
@[simp] theorem accept_settleCnt (w : CmdWord) : (accept w s).settleCnt = s.settleCnt := rfl
@[simp] theorem accept_outstanding (w : CmdWord) : (accept w s).outstanding = s.outstanding := rfl
@[simp] theorem accept_abandoned (w : CmdWord) : (accept w s).abandoned = s.abandoned := rfl
@[simp] theorem accept_hidOpen (w : CmdWord) : (accept w s).hidOpen = s.hidOpen := rfl
@[simp] theorem accept_ecOpen (w : CmdWord) : (accept w s).ecOpen = s.ecOpen := rfl
@[simp] theorem accept_history (w : CmdWord) : (accept w s).history = Event.accept w :: s.history := rfl
@[simp] theorem accept_ec (w : CmdWord) : (accept w s).ec = s.ec := rfl
@[simp] theorem accept_sched (w : CmdWord) : (accept w s).sched = s.sched := rfl
@[simp] theorem accept_draws (w : CmdWord) : (accept w s).draws = s.draws := rfl

@[simp] theorem raise_status (e : ErrCode) (c : Resp) : (raise e c s).status = { s.status with err := e, cause := c, done := false, busy := false } := rfl
@[simp] theorem raise_settleUs (e : ErrCode) (c : Resp) : (raise e c s).settleUs = s.settleUs := rfl
@[simp] theorem raise_frame (e : ErrCode) (c : Resp) : (raise e c s).frame = s.frame := rfl
@[simp] theorem raise_seq (e : ErrCode) (c : Resp) : (raise e c s).seq = s.seq := rfl
@[simp] theorem raise_phase (e : ErrCode) (c : Resp) : (raise e c s).phase = .idle := rfl
@[simp] theorem raise_stepIx (e : ErrCode) (c : Resp) : (raise e c s).stepIx = s.stepIx := rfl
@[simp] theorem raise_subseq (e : ErrCode) (c : Resp) : (raise e c s).subseq = s.subseq := rfl
@[simp] theorem raise_nsub (e : ErrCode) (c : Resp) : (raise e c s).nsub = s.nsub := rfl
@[simp] theorem raise_pendT (e : ErrCode) (c : Resp) : (raise e c s).pendT = s.pendT := rfl
@[simp] theorem raise_pendV (e : ErrCode) (c : Resp) : (raise e c s).pendV = s.pendV := rfl
@[simp] theorem raise_settleCnt (e : ErrCode) (c : Resp) : (raise e c s).settleCnt = s.settleCnt := rfl
@[simp] theorem raise_outstanding (e : ErrCode) (c : Resp) : (raise e c s).outstanding = s.outstanding := rfl
@[simp] theorem raise_abandoned (e : ErrCode) (c : Resp) : (raise e c s).abandoned = s.abandoned := rfl
@[simp] theorem raise_hidOpen (e : ErrCode) (c : Resp) : (raise e c s).hidOpen = s.hidOpen := rfl
@[simp] theorem raise_ecOpen (e : ErrCode) (c : Resp) : (raise e c s).ecOpen = s.ecOpen := rfl
@[simp] theorem raise_history (e : ErrCode) (c : Resp) : (raise e c s).history = s.history := rfl
@[simp] theorem raise_ec (e : ErrCode) (c : Resp) : (raise e c s).ec = s.ec := rfl
@[simp] theorem raise_sched (e : ErrCode) (c : Resp) : (raise e c s).sched = s.sched := rfl
@[simp] theorem raise_draws (e : ErrCode) (c : Resp) : (raise e c s).draws = s.draws := rfl

@[simp] theorem raiseInvalid_status : (raiseInvalid s).status = { s.status with err := .invalidArgument, cause := .ok, done := false, busy := false } := rfl
@[simp] theorem raiseInvalid_settleUs : (raiseInvalid s).settleUs = s.settleUs := rfl
@[simp] theorem raiseInvalid_frame : (raiseInvalid s).frame = s.frame := rfl
@[simp] theorem raiseInvalid_seq : (raiseInvalid s).seq = s.seq := rfl
@[simp] theorem raiseInvalid_phase : (raiseInvalid s).phase = .idle := rfl
@[simp] theorem raiseInvalid_stepIx : (raiseInvalid s).stepIx = s.stepIx := rfl
@[simp] theorem raiseInvalid_subseq : (raiseInvalid s).subseq = s.subseq := rfl
@[simp] theorem raiseInvalid_nsub : (raiseInvalid s).nsub = s.nsub := rfl
@[simp] theorem raiseInvalid_pendT : (raiseInvalid s).pendT = s.pendT := rfl
@[simp] theorem raiseInvalid_pendV : (raiseInvalid s).pendV = s.pendV := rfl
@[simp] theorem raiseInvalid_settleCnt : (raiseInvalid s).settleCnt = s.settleCnt := rfl
@[simp] theorem raiseInvalid_outstanding : (raiseInvalid s).outstanding = s.outstanding := rfl
@[simp] theorem raiseInvalid_abandoned : (raiseInvalid s).abandoned = s.abandoned := rfl
@[simp] theorem raiseInvalid_hidOpen : (raiseInvalid s).hidOpen = s.hidOpen := rfl
@[simp] theorem raiseInvalid_ecOpen : (raiseInvalid s).ecOpen = s.ecOpen := rfl
@[simp] theorem raiseInvalid_history : (raiseInvalid s).history = s.history := rfl
@[simp] theorem raiseInvalid_ec : (raiseInvalid s).ec = s.ec := rfl
@[simp] theorem raiseInvalid_sched : (raiseInvalid s).sched = s.sched := rfl
@[simp] theorem raiseInvalid_draws : (raiseInvalid s).draws = s.draws := rfl

@[simp] theorem failBuild_status : (failBuild s).status = { s.status with frameValid := false, err := .invalidArgument, cause := .ok, done := false, busy := false } := rfl
@[simp] theorem failBuild_settleUs : (failBuild s).settleUs = s.settleUs := rfl
@[simp] theorem failBuild_frame : (failBuild s).frame = s.frame := rfl
@[simp] theorem failBuild_seq : (failBuild s).seq = s.seq := rfl
@[simp] theorem failBuild_phase : (failBuild s).phase = .idle := rfl
@[simp] theorem failBuild_stepIx : (failBuild s).stepIx = s.stepIx := rfl
@[simp] theorem failBuild_subseq : (failBuild s).subseq = s.subseq := rfl
@[simp] theorem failBuild_nsub : (failBuild s).nsub = s.nsub := rfl
@[simp] theorem failBuild_pendT : (failBuild s).pendT = s.pendT := rfl
@[simp] theorem failBuild_pendV : (failBuild s).pendV = s.pendV := rfl
@[simp] theorem failBuild_settleCnt : (failBuild s).settleCnt = s.settleCnt := rfl
@[simp] theorem failBuild_outstanding : (failBuild s).outstanding = s.outstanding := rfl
@[simp] theorem failBuild_abandoned : (failBuild s).abandoned = s.abandoned := rfl
@[simp] theorem failBuild_hidOpen : (failBuild s).hidOpen = s.hidOpen := rfl
@[simp] theorem failBuild_ecOpen : (failBuild s).ecOpen = s.ecOpen := rfl
@[simp] theorem failBuild_history : (failBuild s).history = s.history := rfl
@[simp] theorem failBuild_ec : (failBuild s).ec = s.ec := rfl
@[simp] theorem failBuild_sched : (failBuild s).sched = s.sched := rfl
@[simp] theorem failBuild_draws : (failBuild s).draws = s.draws := rfl

@[simp] theorem succeed_status : (succeed s).status = { s.status with done := true } := rfl
@[simp] theorem succeed_settleUs : (succeed s).settleUs = s.settleUs := rfl
@[simp] theorem succeed_frame : (succeed s).frame = s.frame := rfl
@[simp] theorem succeed_seq : (succeed s).seq = s.seq := rfl
@[simp] theorem succeed_phase : (succeed s).phase = s.phase := rfl
@[simp] theorem succeed_stepIx : (succeed s).stepIx = s.stepIx := rfl
@[simp] theorem succeed_subseq : (succeed s).subseq = s.subseq := rfl
@[simp] theorem succeed_nsub : (succeed s).nsub = s.nsub := rfl
@[simp] theorem succeed_pendT : (succeed s).pendT = s.pendT := rfl
@[simp] theorem succeed_pendV : (succeed s).pendV = s.pendV := rfl
@[simp] theorem succeed_settleCnt : (succeed s).settleCnt = s.settleCnt := rfl
@[simp] theorem succeed_outstanding : (succeed s).outstanding = s.outstanding := rfl
@[simp] theorem succeed_abandoned : (succeed s).abandoned = s.abandoned := rfl
@[simp] theorem succeed_hidOpen : (succeed s).hidOpen = s.hidOpen := rfl
@[simp] theorem succeed_ecOpen : (succeed s).ecOpen = s.ecOpen := rfl
@[simp] theorem succeed_history : (succeed s).history = s.history := rfl
@[simp] theorem succeed_ec : (succeed s).ec = s.ec := rfl
@[simp] theorem succeed_sched : (succeed s).sched = s.sched := rfl
@[simp] theorem succeed_draws : (succeed s).draws = s.draws := rfl

@[simp] theorem commitFrame_status (f : Frame) : (commitFrame f s).status = { s.status with frameValid := true, done := true } := rfl
@[simp] theorem commitFrame_settleUs (f : Frame) : (commitFrame f s).settleUs = s.settleUs := rfl
@[simp] theorem commitFrame_frame (f : Frame) : (commitFrame f s).frame = f := rfl
@[simp] theorem commitFrame_seq (f : Frame) : (commitFrame f s).seq = s.seq := rfl
@[simp] theorem commitFrame_phase (f : Frame) : (commitFrame f s).phase = s.phase := rfl
@[simp] theorem commitFrame_stepIx (f : Frame) : (commitFrame f s).stepIx = s.stepIx := rfl
@[simp] theorem commitFrame_subseq (f : Frame) : (commitFrame f s).subseq = s.subseq := rfl
@[simp] theorem commitFrame_nsub (f : Frame) : (commitFrame f s).nsub = s.nsub := rfl
@[simp] theorem commitFrame_pendT (f : Frame) : (commitFrame f s).pendT = s.pendT := rfl
@[simp] theorem commitFrame_pendV (f : Frame) : (commitFrame f s).pendV = s.pendV := rfl
@[simp] theorem commitFrame_settleCnt (f : Frame) : (commitFrame f s).settleCnt = s.settleCnt := rfl
@[simp] theorem commitFrame_outstanding (f : Frame) : (commitFrame f s).outstanding = s.outstanding := rfl
@[simp] theorem commitFrame_abandoned (f : Frame) : (commitFrame f s).abandoned = s.abandoned := rfl
@[simp] theorem commitFrame_hidOpen (f : Frame) : (commitFrame f s).hidOpen = s.hidOpen := rfl
@[simp] theorem commitFrame_ecOpen (f : Frame) : (commitFrame f s).ecOpen = s.ecOpen := rfl
@[simp] theorem commitFrame_history (f : Frame) : (commitFrame f s).history = s.history := rfl
@[simp] theorem commitFrame_ec (f : Frame) : (commitFrame f s).ec = s.ec := rfl
@[simp] theorem commitFrame_sched (f : Frame) : (commitFrame f s).sched = s.sched := rfl
@[simp] theorem commitFrame_draws (f : Frame) : (commitFrame f s).draws = s.draws := rfl

@[simp] theorem fillSeq_status (t v : Byte) : (fillSeq t v s).status = { s.status with seqValid := true } := rfl
@[simp] theorem fillSeq_settleUs (t v : Byte) : (fillSeq t v s).settleUs = s.settleUs := rfl
@[simp] theorem fillSeq_frame (t v : Byte) : (fillSeq t v s).frame = s.frame := rfl
@[simp] theorem fillSeq_seq (t v : Byte) : (fillSeq t v s).seq = buildSeq t v := rfl
@[simp] theorem fillSeq_phase (t v : Byte) : (fillSeq t v s).phase = s.phase := rfl
@[simp] theorem fillSeq_stepIx (t v : Byte) : (fillSeq t v s).stepIx = s.stepIx := rfl
@[simp] theorem fillSeq_subseq (t v : Byte) : (fillSeq t v s).subseq = s.subseq := rfl
@[simp] theorem fillSeq_nsub (t v : Byte) : (fillSeq t v s).nsub = s.nsub := rfl
@[simp] theorem fillSeq_pendT (t v : Byte) : (fillSeq t v s).pendT = s.pendT := rfl
@[simp] theorem fillSeq_pendV (t v : Byte) : (fillSeq t v s).pendV = s.pendV := rfl
@[simp] theorem fillSeq_settleCnt (t v : Byte) : (fillSeq t v s).settleCnt = s.settleCnt := rfl
@[simp] theorem fillSeq_outstanding (t v : Byte) : (fillSeq t v s).outstanding = s.outstanding := rfl
@[simp] theorem fillSeq_abandoned (t v : Byte) : (fillSeq t v s).abandoned = s.abandoned := rfl
@[simp] theorem fillSeq_hidOpen (t v : Byte) : (fillSeq t v s).hidOpen = s.hidOpen := rfl
@[simp] theorem fillSeq_ecOpen (t v : Byte) : (fillSeq t v s).ecOpen = s.ecOpen := rfl
@[simp] theorem fillSeq_history (t v : Byte) : (fillSeq t v s).history = s.history := rfl
@[simp] theorem fillSeq_ec (t v : Byte) : (fillSeq t v s).ec = s.ec := rfl
@[simp] theorem fillSeq_sched (t v : Byte) : (fillSeq t v s).sched = s.sched := rfl
@[simp] theorem fillSeq_draws (t v : Byte) : (fillSeq t v s).draws = s.draws := rfl

@[simp] theorem freePosition_status : (freePosition s).status = s.status := rfl
@[simp] theorem freePosition_settleUs : (freePosition s).settleUs = s.settleUs := rfl
@[simp] theorem freePosition_frame : (freePosition s).frame = s.frame := rfl
@[simp] theorem freePosition_seq : (freePosition s).seq = s.seq := rfl
@[simp] theorem freePosition_phase : (freePosition s).phase = s.phase := rfl
@[simp] theorem freePosition_stepIx : (freePosition s).stepIx = (Config.freePosition s.draws).1 := rfl
@[simp] theorem freePosition_subseq : (freePosition s).subseq = (Config.freePosition s.draws).2.1 := rfl
@[simp] theorem freePosition_nsub : (freePosition s).nsub = (Config.freePosition s.draws).2.2 := rfl
@[simp] theorem freePosition_pendT : (freePosition s).pendT = s.pendT := rfl
@[simp] theorem freePosition_pendV : (freePosition s).pendV = s.pendV := rfl
@[simp] theorem freePosition_settleCnt : (freePosition s).settleCnt = s.settleCnt := rfl
@[simp] theorem freePosition_outstanding : (freePosition s).outstanding = s.outstanding := rfl
@[simp] theorem freePosition_abandoned : (freePosition s).abandoned = s.abandoned := rfl
@[simp] theorem freePosition_hidOpen : (freePosition s).hidOpen = s.hidOpen := rfl
@[simp] theorem freePosition_ecOpen : (freePosition s).ecOpen = s.ecOpen := rfl
@[simp] theorem freePosition_history : (freePosition s).history = s.history := rfl
@[simp] theorem freePosition_ec : (freePosition s).ec = s.ec := rfl
@[simp] theorem freePosition_sched : (freePosition s).sched = s.sched := rfl
@[simp] theorem freePosition_draws : (freePosition s).draws = s.draws + 1 := rfl

@[simp] theorem complete_status : (complete s).status = { s.status with busy := false, done := true } := rfl
@[simp] theorem complete_settleUs : (complete s).settleUs = s.settleUs := rfl
@[simp] theorem complete_frame : (complete s).frame = s.frame := rfl
@[simp] theorem complete_seq : (complete s).seq = s.seq := rfl
@[simp] theorem complete_phase : (complete s).phase = .idle := rfl
@[simp] theorem complete_stepIx : (complete s).stepIx = (Config.freePosition s.draws).1 := rfl
@[simp] theorem complete_subseq : (complete s).subseq = (Config.freePosition s.draws).2.1 := rfl
@[simp] theorem complete_nsub : (complete s).nsub = (Config.freePosition s.draws).2.2 := rfl
@[simp] theorem complete_pendT : (complete s).pendT = s.pendT := rfl
@[simp] theorem complete_pendV : (complete s).pendV = s.pendV := rfl
@[simp] theorem complete_settleCnt : (complete s).settleCnt = s.settleCnt := rfl
@[simp] theorem complete_outstanding : (complete s).outstanding = s.outstanding := rfl
@[simp] theorem complete_abandoned : (complete s).abandoned = s.abandoned := rfl
@[simp] theorem complete_hidOpen : (complete s).hidOpen = s.hidOpen := rfl
@[simp] theorem complete_ecOpen : (complete s).ecOpen = s.ecOpen := rfl
@[simp] theorem complete_history : (complete s).history = s.history := rfl
@[simp] theorem complete_ec : (complete s).ec = s.ec := rfl
@[simp] theorem complete_sched : (complete s).sched = s.sched := rfl
@[simp] theorem complete_draws : (complete s).draws = s.draws + 1 := rfl

@[simp] theorem fail_status (p : BitVec 1) (r : Resp) : (fail p r s).status = { s.status with failPhase := p, failSubseq := s.subseq, failStep := s.stepIx, failIndex := (currentPair s).index, err := .registerWriteFailed, cause := r, done := false, busy := false } := rfl
@[simp] theorem fail_settleUs (p : BitVec 1) (r : Resp) : (fail p r s).settleUs = s.settleUs := rfl
@[simp] theorem fail_frame (p : BitVec 1) (r : Resp) : (fail p r s).frame = s.frame := rfl
@[simp] theorem fail_seq (p : BitVec 1) (r : Resp) : (fail p r s).seq = s.seq := rfl
@[simp] theorem fail_phase (p : BitVec 1) (r : Resp) : (fail p r s).phase = .idle := rfl
@[simp] theorem fail_stepIx (p : BitVec 1) (r : Resp) : (fail p r s).stepIx = (Config.freePosition s.draws).1 := rfl
@[simp] theorem fail_subseq (p : BitVec 1) (r : Resp) : (fail p r s).subseq = (Config.freePosition s.draws).2.1 := rfl
@[simp] theorem fail_nsub (p : BitVec 1) (r : Resp) : (fail p r s).nsub = (Config.freePosition s.draws).2.2 := rfl
@[simp] theorem fail_pendT (p : BitVec 1) (r : Resp) : (fail p r s).pendT = s.pendT := rfl
@[simp] theorem fail_pendV (p : BitVec 1) (r : Resp) : (fail p r s).pendV = s.pendV := rfl
@[simp] theorem fail_settleCnt (p : BitVec 1) (r : Resp) : (fail p r s).settleCnt = s.settleCnt := rfl
@[simp] theorem fail_outstanding (p : BitVec 1) (r : Resp) : (fail p r s).outstanding = s.outstanding := rfl
@[simp] theorem fail_abandoned (p : BitVec 1) (r : Resp) : (fail p r s).abandoned = s.abandoned := rfl
@[simp] theorem fail_hidOpen (p : BitVec 1) (r : Resp) : (fail p r s).hidOpen = s.hidOpen := rfl
@[simp] theorem fail_ecOpen (p : BitVec 1) (r : Resp) : (fail p r s).ecOpen = s.ecOpen := rfl
@[simp] theorem fail_history (p : BitVec 1) (r : Resp) : (fail p r s).history = s.history := rfl
@[simp] theorem fail_ec (p : BitVec 1) (r : Resp) : (fail p r s).ec = s.ec.forget := rfl
@[simp] theorem fail_sched (p : BitVec 1) (r : Resp) : (fail p r s).sched = s.sched := rfl
@[simp] theorem fail_draws (p : BitVec 1) (r : Resp) : (fail p r s).draws = s.draws + 1 := rfl

@[simp] theorem nextSubseq_status : (nextSubseq s).status = { s.status with seqValid := true } := rfl
@[simp] theorem nextSubseq_settleUs : (nextSubseq s).settleUs = s.settleUs := rfl
@[simp] theorem nextSubseq_frame : (nextSubseq s).frame = s.frame := rfl
@[simp] theorem nextSubseq_seq : (nextSubseq s).seq = buildSeq s.pendT s.pendV := rfl
@[simp] theorem nextSubseq_phase : (nextSubseq s).phase = .ecIdx := rfl
@[simp] theorem nextSubseq_stepIx : (nextSubseq s).stepIx = 0 := rfl
@[simp] theorem nextSubseq_subseq : (nextSubseq s).subseq = 1 := rfl
@[simp] theorem nextSubseq_nsub : (nextSubseq s).nsub = s.nsub := rfl
@[simp] theorem nextSubseq_pendT : (nextSubseq s).pendT = s.pendT := rfl
@[simp] theorem nextSubseq_pendV : (nextSubseq s).pendV = s.pendV := rfl
@[simp] theorem nextSubseq_settleCnt : (nextSubseq s).settleCnt = s.settleCnt := rfl
@[simp] theorem nextSubseq_outstanding : (nextSubseq s).outstanding = s.outstanding := rfl
@[simp] theorem nextSubseq_abandoned : (nextSubseq s).abandoned = s.abandoned := rfl
@[simp] theorem nextSubseq_hidOpen : (nextSubseq s).hidOpen = s.hidOpen := rfl
@[simp] theorem nextSubseq_ecOpen : (nextSubseq s).ecOpen = s.ecOpen := rfl
@[simp] theorem nextSubseq_history : (nextSubseq s).history = s.history := rfl
@[simp] theorem nextSubseq_ec : (nextSubseq s).ec = s.ec := rfl
@[simp] theorem nextSubseq_sched : (nextSubseq s).sched = s.sched := rfl
@[simp] theorem nextSubseq_draws : (nextSubseq s).draws = s.draws := rfl

theorem start_of_open {n : BitVec 2} {t v : Byte} (h : s.ecOpen = true) :
    start n t v s =
      { s with
        seq := buildSeq t v, nsub := n, subseq := 0, stepIx := 0, phase := .ecIdx
        status := { s.status with seqValid := true, busy := true } } := by
  simp [start, h, fillSeq]

theorem start_of_closed {n : BitVec 2} {t v : Byte} (h : s.ecOpen = false) :
    start n t v s = raise .deviceNotFound .ok s := by
  simp [start, h]

end Sys2Proof.Machine
end

