-- ==== Sys2Proof/Laws/Exec.lean ====
section
/-! SUPPORT. Everything the acceptance of a command can do, said once: later proofs cite `exec_cases` and unfold
no meaning. -/

namespace Sys2Proof.Machine

open Sys2Proof.Safety

/-- The sequence an EC command starts with and what it leaves pending: (sub-sequences, target, value, PEND_T,
PEND_V). -/
def startArgs (i : Instr) (s : State) : Option (BitVec 2 × Byte × Byte × Byte × Byte) :=
  match i with
  | .ecExec t v => some (1, t, v, s.pendT, s.pendV)
  | .ecPerf m => if m.toNat ≤ 2 then some (1, 0x40, m, s.pendT, s.pendV) else none
  | .ecFan n => if n.toNat ≤ 1 then some (1, 0x41, n, s.pendT, s.pendV) else none
  | .ecMaxon => some (2, 0x40, 2, 0x41, 1)
  | .ecMaxoff => some (2, 0x41, 0, 0x40, 1)
  | .frmZoned .. => none
  | .frmLegacy .. => none
  | .frmPerf _ => none
  | .frmSend => none
  | .cfgSettle _ => none
  | .ecBuild _ _ => none
  | .reserved0 => none
  | .reserved6 => none
  | .reserved7 => none
  | .reservedE => none
  | .reservedF => none

/-- What an accepted command leaves behind. -/
inductive Accepted (i : Instr) (s : State) : State → Prop where
  /-- A build succeeds. -/
  | built (f : Frame) (hf : Sealed f) (hop : i.opcode ∈ [0x1, 0x2, 0x3]) : Accepted i s (commitFrame f s)
  /-- A build is refused. -/
  | notBuilt (hop : i.opcode ∈ [0x1, 0x2, 0x3]) : Accepted i s (failBuild s)
  /-- FRM.SEND starts its transfer. -/
  | sending (hi : i = .frmSend) (hv : s.status.frameValid = true) (ho : s.hidOpen = true) :
      Accepted i s { s with phase := .hidReq, status := { s.status with busy := true } }
  /-- InvalidArgument. -/
  | invalid : Accepted i s (raiseInvalid s)
  /-- DeviceNotFound. -/
  | notFound (pt pv : Byte) : Accepted i s (raise .deviceNotFound .ok { s with pendT := pt, pendV := pv })
  /-- CFG.SETTLE. -/
  | settle (us : Micros) (hi : i = .cfgSettle us) (hu : 1000 ≤ us.toNat) :
      Accepted i s (succeed { s with settleUs := us })
  /-- EC.BUILD. -/
  | filled (t v : Byte) (hi : i = .ecBuild t v) : Accepted i s (succeed (fillSeq t v s))
  /-- An EC command starts. -/
  | started (n : BitVec 2) (t v pt pv : Byte) (ha : startArgs i s = some (n, t, v, pt, pv)) :
      Accepted i s
        { s with
          pendT := pt, pendV := pv, seq := buildSeq t v, nsub := n, subseq := 0, stepIx := 0, phase := .ecIdx
          status := { s.status with seqValid := true, busy := true } }

/-- What each EC command starts with (spec/41_sequencer.md R204 to R208). -/
theorem startArgs_cases {i : Instr} {s : State} {n : BitVec 2} {t v pt pv : Byte}
    (ha : startArgs i s = some (n, t, v, pt, pv)) :
    (i.opcode = 0x9 ∧ n = 1) ∨ (i.opcode = 0xA ∧ n = 1 ∧ t = 0x40 ∧ v.toNat ≤ 2) ∨
      (i.opcode = 0xB ∧ n = 1 ∧ t = 0x41 ∧ v.toNat ≤ 1) ∨
      (i.opcode = 0xC ∧ n = 2 ∧ t = 0x40 ∧ v = 2 ∧ pt = 0x41 ∧ pv = 1) ∨
      (i.opcode = 0xD ∧ n = 2 ∧ t = 0x41 ∧ v = 0 ∧ pt = 0x40 ∧ pv = 1) := by
  cases i <;> simp [startArgs] at ha
  · exact .inl ⟨rfl, ha.1.symm⟩
  · obtain ⟨h, rfl, rfl, rfl, -, -⟩ := ha
    exact .inr (.inl ⟨rfl, rfl, rfl, h⟩)
  · obtain ⟨h, rfl, rfl, rfl, -, -⟩ := ha
    exact .inr (.inr (.inl ⟨rfl, rfl, rfl, h⟩))
  · obtain ⟨rfl, rfl, rfl, rfl, rfl⟩ := ha
    exact .inr (.inr (.inr (.inl ⟨rfl, rfl, rfl, rfl, rfl, rfl⟩)))
  · obtain ⟨rfl, rfl, rfl, rfl, rfl⟩ := ha
    exact .inr (.inr (.inr (.inr ⟨rfl, rfl, rfl, rfl, rfl, rfl⟩)))

theorem start_accepted {i : Instr} {s : State} {n : BitVec 2} {t v pt pv : Byte}
    (ha : startArgs i s = some (n, t, v, pt, pv)) :
    Accepted i s (start n t v { s with pendT := pt, pendV := pv }) := by
  by_cases h : s.ecOpen = true
  · rw [start_of_open { s with pendT := pt, pendV := pv } h]
    exact .started n t v pt pv ha
  · rw [start_of_closed { s with pendT := pt, pendV := pv } (Bool.eq_false_of_not_eq_true h)]
    exact .notFound pt pv

/-- Every command's acceptance answers a next state, one of the forms of `Accepted`. -/
theorem exec_cases (i : Instr) (s : State) : ∃ t, exec i s = .next t ∧ Accepted i s t := by
  cases i with
  | frmZoned zone mode r g b bri =>
    simp only [exec, execFrmZoned]
    split
    · split
      · exact ⟨_, rfl, .built _ (colourFrame_sealed ..) (by simp [Instr.opcode])⟩
      · exact ⟨_, rfl, .notBuilt (by simp [Instr.opcode])⟩
    · exact ⟨_, rfl, .notBuilt (by simp [Instr.opcode])⟩
  | frmLegacy mode r g b bri =>
    simp only [exec, execFrmLegacy]
    split
    · exact ⟨_, rfl, .built _ (colourFrame_sealed ..) (by simp [Instr.opcode])⟩
    · exact ⟨_, rfl, .notBuilt (by simp [Instr.opcode])⟩
  | frmPerf p =>
    simp only [exec, execFrmPerf]
    split
    · exact ⟨_, rfl, .built _ (perfFrame_eq p ▸ colourFrame_sealed ..) (by simp [Instr.opcode])⟩
    · exact ⟨_, rfl, .notBuilt (by simp [Instr.opcode])⟩
  | frmSend =>
    simp only [exec, execFrmSend]
    split
    · rename_i hv
      split
      · rename_i ho
        exact ⟨_, rfl, .sending rfl hv ho⟩
      · exact ⟨_, rfl, .notFound s.pendT s.pendV⟩
    · exact ⟨_, rfl, .invalid⟩
  | cfgSettle us =>
    simp only [exec, execCfgSettle]
    split
    · rename_i hu
      exact ⟨_, rfl, .settle us rfl (by simpa [settleOk, Config.settleFloorUs] using hu)⟩
    · exact ⟨_, rfl, .invalid⟩
  | ecBuild t v => exact ⟨_, rfl, .filled t v rfl⟩
  | ecExec t v => exact ⟨_, rfl, start_accepted rfl⟩
  | ecPerf m =>
    simp only [exec, execEcPerf]
    split
    · rename_i hm
      exact ⟨_, rfl, start_accepted (if_pos (by simpa [ecmodeOk] using hm))⟩
    · exact ⟨_, rfl, .invalid⟩
  | ecFan n =>
    simp only [exec, execEcFan]
    split
    · rename_i hn
      exact ⟨_, rfl, start_accepted (if_pos (by simpa [enabledOk] using hn))⟩
    · exact ⟨_, rfl, .invalid⟩
  | ecMaxon => exact ⟨_, rfl, start_accepted rfl⟩
  | ecMaxoff => exact ⟨_, rfl, start_accepted rfl⟩
  | reserved0 => exact ⟨_, rfl, .invalid⟩
  | reserved6 => exact ⟨_, rfl, .invalid⟩
  | reserved7 => exact ⟨_, rfl, .invalid⟩
  | reservedE => exact ⟨_, rfl, .invalid⟩
  | reservedF => exact ⟨_, rfl, .invalid⟩

end Sys2Proof.Machine
end

