-- ==== Sys2Proof/Laws/PerInstr.lean ====
section
/-! SUPPORT. What is proved of every command as syntax, one lemma a constructor: the fields that its encoding
carries besides its operands (spec/30_encoding.md R110, R113, R129). -/

namespace Sys2Proof.Laws.EncodedFields

/-- The encoding carries the command's opcode and zero reserved fields, so it lies in the command's row of
spec/opcode_table.json. -/
def Statement (i : Instr) : Prop :=
  (encode i).op = i.opcode ∧ (encode i).hasReservedBits = false ∧ encode i &&& i.rowMask = i.rowMatch

/-- A word built from an opcode and operand fields keeps the opcode alone under a valid opcode's mask. -/
theorem cmdWord_and_validMask (op : BitVec 4) (a b c d e f : Byte) :
    cmdWord op a b c d e f &&& (0xFF000000000000FF : CmdWord) = op.setWidth 64 := by
  rw [and_validMask]; simp

theorem frmZoned (zone mode red green blue brightness : Byte) :
    Statement (.frmZoned zone mode red green blue brightness) :=
  ⟨cmdWord_op .., cmdWord_hasReservedBits .., cmdWord_and_validMask ..⟩

theorem frmLegacy (mode red green blue brightness : Byte) : Statement (.frmLegacy mode red green blue brightness) :=
  ⟨cmdWord_op .., cmdWord_hasReservedBits .., cmdWord_and_validMask ..⟩

theorem frmPerf (perf : Byte) : Statement (.frmPerf perf) :=
  ⟨cmdWord_op .., cmdWord_hasReservedBits .., cmdWord_and_validMask ..⟩

theorem frmSend : Statement .frmSend :=
  ⟨cmdWord_op .., cmdWord_hasReservedBits .., cmdWord_and_validMask ..⟩

theorem cfgSettle (us : Micros) : Statement (.cfgSettle us) :=
  ⟨cmdWord_op .., cmdWord_hasReservedBits .., cmdWord_and_validMask ..⟩

theorem ecBuild (target value : Byte) : Statement (.ecBuild target value) :=
  ⟨cmdWord_op .., cmdWord_hasReservedBits .., cmdWord_and_validMask ..⟩

theorem ecExec (target value : Byte) : Statement (.ecExec target value) :=
  ⟨cmdWord_op .., cmdWord_hasReservedBits .., cmdWord_and_validMask ..⟩

theorem ecPerf (ecmode : Byte) : Statement (.ecPerf ecmode) :=
  ⟨cmdWord_op .., cmdWord_hasReservedBits .., cmdWord_and_validMask ..⟩

theorem ecFan (enabled : Byte) : Statement (.ecFan enabled) :=
  ⟨cmdWord_op .., cmdWord_hasReservedBits .., cmdWord_and_validMask ..⟩

theorem ecMaxon : Statement .ecMaxon :=
  ⟨cmdWord_op .., cmdWord_hasReservedBits .., cmdWord_and_validMask ..⟩

theorem ecMaxoff : Statement .ecMaxoff :=
  ⟨cmdWord_op .., cmdWord_hasReservedBits .., cmdWord_and_validMask ..⟩

theorem reserved0 : Statement .reserved0 := by unfold Statement; decide

theorem reserved6 : Statement .reserved6 := by unfold Statement; decide

theorem reserved7 : Statement .reserved7 := by unfold Statement; decide

theorem reservedE : Statement .reservedE := by unfold Statement; decide

theorem reservedF : Statement .reservedF := by unfold Statement; decide

end Sys2Proof.Laws.EncodedFields
end

