-- ==== Sys2Proof/Laws/Step.lean ====
section
/-! SUPPORT. Everything one step can do, said once: the moves of the environment and the block's FSM
(`envStep_cases`), and the whole step (`step_cases`). Later proofs cite these and unfold no operation. -/

namespace Sys2Proof.Machine

/-- What a move other than the host's issue leaves behind. -/
inductive Moved (m : Move) (s : State) : State → Prop where
  /-- The move's agent is not enabled, or the move is a read. -/
  | stays : Moved m s s
  /-- BLOCK issues the HidWrite (spec/40_framer.md R156). -/
  | hidIssued (hm : m = .block) (hp : s.phase = .hidReq) : Moved m s (hidIssue s)
  /-- HIDT answers (R156, spec/60_exceptions.md R266). -/
  | hidAnswered (f : Frame) (resp : Resp) (hm : m = .hidAnswer resp) (hp : s.phase = .hidWait)
      (ho : s.outstanding = some (.hid f)) : Moved m s (hidRespond f resp s)
  /-- BLOCK issues the index-port write (spec/41_sequencer.md R210). -/
  | indexIssued (hm : m = .block) (hp : s.phase = .ecIdx) : Moved m s (indexIssue s)
  /-- PORTT answers the index-port write (R211). -/
  | indexAnswered (b : Byte) (resp : Resp) (hm : m = .portAnswer resp) (hp : s.phase = .ecIdxWait)
      (ho : s.outstanding = some (.port .index b)) : Moved m s (indexRespond b resp s)
  /-- BLOCK issues the data-port write (R212). -/
  | dataIssued (hm : m = .block) (hp : s.phase = .ecDat) : Moved m s (dataIssue s)
  /-- PORTT answers the data-port write (R213). -/
  | dataAnswered (b : Byte) (resp : Resp) (hm : m = .portAnswer resp) (hp : s.phase = .ecDatWait)
      (ho : s.outstanding = some (.port .data b)) : Moved m s (dataRespond b resp s)
  /-- BLOCK goes on to the next pair (R215). -/
  | nextPair (hm : m = .block) (hp : s.phase = .ecSettle) (hc : s.settleCnt = 0) (hs : s.stepIx.toNat < 7) :
      Moved m s { s with stepIx := s.stepIx + 1, phase := .ecIdx }
  /-- BLOCK goes on to the next sub-sequence (R216). -/
  | nextSequence (hm : m = .block) (hp : s.phase = .ecSettle) (hc : s.settleCnt = 0) (hs : s.stepIx.toNat = 7)
      (hn : s.subseq.toNat + 1 < s.nsub.toNat) : Moved m s (nextSubseq s)
  /-- BLOCK completes the command (R217). -/
  | completed (hm : m = .block) (hp : s.phase = .ecSettle) (hc : s.settleCnt = 0) (hs : s.stepIx.toNat = 7)
      (hn : s.nsub.toNat ≤ s.subseq.toNat + 1) : Moved m s (complete s)
  /-- TIME (R214). -/
  | ticked (hm : m = .tick) : Moved m s (tickStep s)
  /-- FOREIGN. -/
  | foreignWrote (p : Port) (b : Byte) (resp : Resp) (hm : m = .foreignWrite p b resp) :
      Moved m s (foreignStep p b resp s)
  /-- A late answer to an abandoned HidWrite (spec/70_reset_and_hazards.md R300). -/
  | lateHid (k : Nat) (resp : Resp) (f : Frame) (hm : m = .lateAnswer k resp) (ha : s.abandoned[k]? = some (.hid f)) :
      Moved m s (record (.hidWrite f resp) { s with abandoned := s.abandoned.eraseIdx k })
  /-- A late answer to an abandoned PortWrite (R300). -/
  | latePort (k : Nat) (resp : Resp) (p : Port) (b : Byte) (hm : m = .lateAnswer k resp)
      (ha : s.abandoned[k]? = some (.port p b)) :
      Moved m s
        (record (.portWrite .block p b resp) { s with abandoned := s.abandoned.eraseIdx k, ec := s.ec.forget })
  /-- The caller opens or closes the HID handle. -/
  | hidOpened (v : Bool) (hm : m = .setHidOpen v) : Moved m s { s with hidOpen := v }
  /-- The caller opens or closes the port resource. -/
  | ecOpened (v : Bool) (hm : m = .setEcOpen v) : Moved m s { s with ecOpen := v }
  /-- Reset (R300). -/
  | wasReset (hm : m = .reset) : Moved m s (resetStep s)

theorem blockStep_cases (s : State) : Moved .block s (blockStep s) := by
  unfold blockStep
  split
  case h_1 hp => exact .hidIssued rfl hp
  case h_2 hp => exact .indexIssued rfl hp
  case h_3 hp => exact .dataIssued rfl hp
  case h_4 hp =>
    split
    · rename_i hc
      unfold settleAdvance
      split
      · rename_i hs
        exact .nextPair rfl hp hc hs
      · rename_i hs
        have h7 : s.stepIx.toNat = 7 := by have := s.stepIx.isLt; omega
        split
        · rename_i hn
          exact .nextSequence rfl hp hc h7 hn
        · rename_i hn
          exact .completed rfl hp hc h7 (by omega)
    · exact .stays
  all_goals exact .stays

/-- What each move but the host's issue can do. -/
theorem envStep_cases (m : Move) (s : State) : Moved m s (envStep m s) := by
  cases m with
  | issue w => exact .stays
  | read a => exact .stays
  | block => exact blockStep_cases s
  | hidAnswer resp =>
    simp only [envStep, hidAnswer]
    split
    · rename_i f hp ho
      exact .hidAnswered f resp rfl hp ho
    · exact .stays
  | portAnswer resp =>
    simp only [envStep, portAnswer]
    split
    · rename_i b hp ho
      exact .indexAnswered b resp rfl hp ho
    · rename_i b hp ho
      exact .dataAnswered b resp rfl hp ho
    · exact .stays
  | lateAnswer k resp =>
    simp only [envStep, lateStep]
    split
    · rename_i f ha
      exact .lateHid k resp f rfl ha
    · rename_i p b ha
      exact .latePort k resp p b rfl ha
    · exact .stays
  | tick => exact .ticked rfl
  | foreignWrite p b resp => exact .foreignWrote p b resp rfl
  | setHidOpen v => exact .hidOpened v rfl
  | setEcOpen v => exact .ecOpened v rfl
  | reset => exact .wasReset rfl

/-- What one agent's move leaves behind. -/
inductive Acted (m : Move) (s : State) : State → Prop where
  /-- The host's word is accepted and is a command. -/
  | accepted (w : CmdWord) (i : Instr) (t : State) (hm : m = .issue w) (hp : s.phase = .idle)
      (hd : decode w = .ok i) (ha : Accepted i (accept w s) t) : Acted m s t
  /-- The host's word is accepted and is no command. -/
  | rejected (w : CmdWord) (r : DecodeReject) (hm : m = .issue w) (hp : s.phase = .idle)
      (hd : decode w = .error r) : Acted m s (rejectWord r (accept w s))
  /-- Any other move. -/
  | moved (t : State) (h : Moved m s t) : Acted m s t

/-- Every move answers a next state, one of the forms of `Acted`. -/
theorem act_cases (m : Move) (s : State) : ∃ t, act m s = .next t ∧ Acted m s t := by
  by_cases hm : ∃ w, m = .issue w
  · obtain ⟨w, rfl⟩ := hm
    by_cases hp : s.phase = .idle
    · simp only [act, hp, if_true, issueStep]
      cases hd : decode w with
      | ok i =>
        obtain ⟨t, h1, h2⟩ := exec_cases i (accept w s)
        exact ⟨t, h1, .accepted w i t rfl hp hd h2⟩
      | error r => exact ⟨_, rfl, .rejected w r rfl hp hd⟩
    · exact ⟨s, by simp [act, hp], .moved s .stays⟩
  · refine ⟨envStep m s, ?_, .moved _ (envStep_cases m s)⟩
    cases m <;> simp_all [act]

/-- Taking the next move changes the schedule and the count of draws only. -/
theorem nextMove_state (s : State) : ∃ l d, (nextMove s).2 = { s with sched := l, draws := d } := by
  unfold nextMove
  split
  · exact ⟨_, s.draws, rfl⟩
  · exact ⟨s.sched, _, rfl⟩

/-- Every step answers a next state: the next move, taken. -/
theorem step_cases (s : State) : ∃ t, step s = .next t ∧ Acted (nextMove s).1 (nextMove s).2 t :=
  act_cases _ _

theorem acted_of_step {s t : State} (h : step s = .next t) : Acted (nextMove s).1 (nextMove s).2 t := by
  obtain ⟨t', h1, h2⟩ := step_cases s
  rw [h] at h1
  cases h1
  exact h2

end Sys2Proof.Machine
end

