-- ==== Sys2Proof/Tests/Slice0.lean ====
section
/-! SUPPORT. Tests: the well-formedness checks refuse ill-formed commands, words written out from the encodings of
the spec decode, the vectors of spec/95_test_vectors.md come out, and every statement with hypotheses has a witness
that meets them. Expected values are the spec's, cited at each test. -/

namespace Sys2Proof.Tests

open Sys2Proof.Machine Sys2Proof.Safety

/-! Small states. -/

/-- The state after reset with the two transports open. -/
def opened : State := { State.reset with hidOpen := true, ecOpen := true }

/-- One move is placed. -/
def placed (m : Move) (s : State) : State := { s with sched := [m] }

/-- The next state of one step that issues a word. -/
def issued (w : Nat) (s : State) : Option State :=
  match step (s.withFetchWord 64 w) with
  | .next t => some t
  | .fault _ => none
  | .refused _ => none

/-- The next state of one step with the move placed. -/
def moved (m : Move) (s : State) : Option State :=
  match step (placed m s) with
  | .next t => some t
  | .fault _ => none
  | .refused _ => none

/-- STATUS after one step. -/
def statusOf (o : Option State) : Option HostWord := o.map fun t => statusWord t.status

/-- A state in an EC command of opcode `op` that runs `buildSeq t v`, at pair `k` of sub-sequence `x` of `n`. -/
def running (op : BitVec 4) (n : BitVec 2) (x : BitVec 1) (k : BitVec 3) (p : Phase) (t v : Byte) : State :=
  { opened with
    phase := p, stepIx := k, subseq := x, nsub := n, seq := buildSeq t v
    status := { Status.reset with busy := true, seqValid := true, lastOp := op } }

/-- The same with the phase's request outstanding. -/
def waiting (op : BitVec 4) (n : BitVec 2) (x : BitVec 1) (k : BitVec 3) (p : Phase) (t v : Byte) : State :=
  { running op n x k p t v with outstanding := requestOf (running op n x k p t v) }

/-- No settle delay and no latency: the shortest run of an EC command. -/
def quick : State := { opened with settleUs := 0, ec := { Ec.powerUp with latencyUs := 0 } }

/-! Well-formedness: one ill-formed term for each check (R114, R129, R134). -/

theorem test_zone_5_ill_formed : (Instr.frmZoned 5 0 0 0 0 0).wellFormed = false := by decide
theorem test_zoned_mode_7_ill_formed : (Instr.frmZoned 4 7 0 0 0 0).wellFormed = false := by decide
theorem test_legacy_mode_7_ill_formed : (Instr.frmLegacy 7 0 0 0 0).wellFormed = false := by decide
theorem test_perf_0x43_ill_formed : (Instr.frmPerf 0x43).wellFormed = false := by decide
theorem test_settle_999_ill_formed : (Instr.cfgSettle 999).wellFormed = false := by decide
theorem test_ecmode_3_ill_formed : (Instr.ecPerf 3).wellFormed = false := by decide
theorem test_enabled_2_ill_formed : (Instr.ecFan 2).wellFormed = false := by decide
theorem test_reserved_ill_formed :
    Instr.reserved0.wellFormed = false ∧ Instr.reserved6.wellFormed = false ∧ Instr.reserved7.wellFormed = false ∧
    Instr.reservedE.wellFormed = false ∧ Instr.reservedF.wellFormed = false := by decide
theorem test_boundaries_well_formed :
    (Instr.frmZoned 4 6 255 255 255 255).wellFormed = true ∧ (Instr.frmLegacy 6 0 0 0 0).wellFormed = true ∧
    (Instr.frmPerf 0x40).wellFormed = true ∧ (Instr.cfgSettle 1000).wellFormed = true ∧
    (Instr.ecPerf 2).wellFormed = true ∧ (Instr.ecFan 1).wellFormed = true := by decide
theorem test_asm_byte_256_ill_formed :
    (AsmLine.frmZoned (.num 256) (.num 0) 0 0 0 0).wellFormed = false ∧
    (AsmLine.frmLegacy (.name .rainbow) 255 100 0 256).wellFormed = false ∧
    (AsmLine.frmPerf (.num 256)).wellFormed = false ∧ (AsmLine.ecBuild 256 0).wellFormed = false ∧
    (AsmLine.ecExec 0 256).wellFormed = false ∧ (AsmLine.ecPerf (.num 256)).wellFormed = false ∧
    (AsmLine.ecFan (.num 256)).wellFormed = false ∧ (AsmLine.frmAll (.num 256) 0 0 0 0).wellFormed = false ∧
    (AsmLine.ecRaw 256 0).wellFormed = false := by decide
theorem test_asm_settle_65536_ill_formed : (AsmLine.cfgSettle 65536).assemble = none := by decide

/-! Decoding: the words are those of spec/95_test_vectors.md sections 2 to 5, laid out by R110. -/

theorem test_decode_frmZoned : decode 0x00FF0000FF010101 = .ok (.frmZoned 1 1 255 0 0 255) := by decide
theorem test_decode_frmLegacy : decode 0x0000000000015502 = .ok (.frmLegacy 1 0 0 0 0) := by decide
theorem test_decode_frmPerf : decode 0x0000000000004103 = .ok (.frmPerf 0x41) := by decide
theorem test_decode_frmSend : decode 0x0000000000000004 = .ok .frmSend := by decide
theorem test_decode_cfgSettle : decode 0x000000000003E805 = .ok (.cfgSettle 1000) := by decide
theorem test_decode_ecBuild : decode 0x0000000000024008 = .ok (.ecBuild 0x40 2) := by decide
theorem test_decode_ecExec : decode 0x0000000000014109 = .ok (.ecExec 0x41 1) := by decide
theorem test_decode_ecPerf : decode 0x000000000000020A = .ok (.ecPerf 2) := by decide
theorem test_decode_ecFan : decode 0x000000000000010B = .ok (.ecFan 1) := by decide
theorem test_decode_ecMaxon : decode 0x000000000000000C = .ok .ecMaxon := by decide
theorem test_decode_ecMaxoff : decode 0x000000000000000D = .ok .ecMaxoff := by decide
theorem test_decode_reserved :
    decode 0x0000000000000000 = .ok .reserved0 ∧ decode 0x0000000000000006 = .ok .reserved6 ∧
    decode 0x0000000000000007 = .ok .reserved7 ∧ decode 0x000000000000000E = .ok .reservedE ∧
    decode 0x000000000000000F = .ok .reservedF := by decide
theorem test_decode_rejects_rsv0 : decode 0x0000000000010111 = .error (.reservedField 0x1) := by decide
theorem test_decode_rejects_rsv1 : decode 0x0100000000000004 = .error (.reservedField 0x4) := by decide
theorem test_decodeTableWord : decodeTableWord 64 0x00193264C8030101 = some (.frmZoned 1 3 200 100 50 25) := by decide

/-- R130. -/
theorem test_pseudo_instructions :
    (AsmLine.frmAll (.name .rainbow) 255 100 0 50).assemble =
      (AsmLine.frmZoned (.name .all) (.name .rainbow) 255 100 0 50).assemble ∧
    AsmLine.ecFanOn.assemble = some 0x000000000000010B ∧ AsmLine.ecFanOff.assemble = some 0x000000000000000B ∧
    (AsmLine.ecRaw 0x41 1).assemble = some 0x0000000000014109 := by decide

/-! One acceptance step on the vectors of spec/95_test_vectors.md: STATUS, and what the command writes. -/

/-- Section 2.1, first row. -/
theorem test_frmZoned_left_static :
    (issued 0x00FF0000FF010101 State.reset).map
        (fun t => (statusWord t.status, t.frame[0], t.frame[1], t.frame[2], t.frame[7], t.frame[10], t.frame[63])) =
      some (0x01000006, 0x06, 0x61, 0x04, 0xFF, 0xFF, 0x63) := by decide
/-- Section 2.1, mode 7. -/
theorem test_frmZoned_mode_7_refused :
    (issued 0x0000000000070201 { opened with status := { Status.reset with frameValid := true } }).map
        (fun t => (statusWord t.status, t.frame[1])) = some (0x01000010, 0x00) := by decide
/-- Section 2.2, first row: the trailer is 0xAD (spec/90_conflicts.md C2). -/
theorem test_frmLegacy_rainbow :
    (issued 0x00320064FF040002 State.reset).map
        (fun t => (statusWord t.status, hostRead t 0x11, hostRead t 0x4F, hostRead t 0x50)) =
      some (0x02000006, 0x14, 0xAD, 0x00) := by decide
/-- Section 2.2, mode 7. -/
theorem test_frmLegacy_mode_7_refused : statusOf (issued 0x0000000000070002 State.reset) = some 0x02000010 := by decide
/-- Section 2.3. -/
theorem test_frmPerf_gaming :
    (issued 0x0000000000004203 State.reset).map
        (fun t => (statusWord t.status, t.frame[1], t.frame[2], t.frame[63])) =
      some (0x03000006, 0x42, 0x00, 0x42) := by decide
/-- Section 2.3: the EC encoding of Gaming is refused here. -/
theorem test_frmPerf_ec_value_refused : statusOf (issued 0x0000000000000203 State.reset) = some 0x03000010 := by decide
/-- Section 3. -/
theorem test_frmSend_starts :
    statusOf (issued 0x0000000000000004 { opened with status := { Status.reset with frameValid := true } }) =
      some 0x04000005 := by decide
/-- Section 3: no frame is reported before a closed handle. -/
theorem test_frmSend_without_frame : statusOf (issued 0x0000000000000004 State.reset) = some 0x04000010 := by decide
/-- Section 4.1. -/
theorem test_cfgSettle_1000 :
    (issued 0x000000000003E805 State.reset).map (fun t => (statusWord t.status, hostRead t 0x01)) =
      some (0x05000002, 1000) := by decide
/-- Section 4.1. -/
theorem test_cfgSettle_999_refused :
    (issued 0x000000000003E705 State.reset).map (fun t => (statusWord t.status, hostRead t 0x01)) =
      some (0x05000010, 5000) := by decide
/-- Section 4.2. -/
theorem test_ecBuild :
    (issued 0x0000000000014108 State.reset).map
        (fun t => (statusWord t.status, hostRead t 0x60, hostRead t 0x63, hostRead t 0x65, hostRead t 0x67)) =
      some (0x0800000A, 0x0094, 0x0192, 0x4191, 0xA193) := by decide
/-- Section 4.3. -/
theorem test_ecExec_starts : statusOf (issued 0x0000000000014109 opened) = some 0x09000009 := by decide
/-- Section 4.3: closed port. -/
theorem test_ecExec_closed : statusOf (issued 0x0000000000014109 State.reset) = some 0x09000020 := by decide
/-- Section 4.3. -/
theorem test_ecPerf_starts :
    (issued 0x000000000000020A opened).map (fun t => (statusWord t.status, t.seq)) =
      some (0x0A000009, buildSeq 0x40 2) := by decide
/-- Section 4.3. -/
theorem test_ecPerf_3_refused : statusOf (issued 0x000000000000030A opened) = some 0x0A000010 := by decide
/-- Section 4.3. -/
theorem test_ecFan_starts :
    (issued 0x000000000000000B opened).map (fun t => (statusWord t.status, t.seq)) =
      some (0x0B000009, buildSeq 0x41 0) := by decide
/-- Section 4.3. -/
theorem test_ecFan_2_refused : statusOf (issued 0x000000000000020B opened) = some 0x0B000010 := by decide
/-- Section 4.3 and program P3. -/
theorem test_ecMaxon_starts :
    (issued 0x000000000000000C opened).map
        (fun t => (statusWord t.status, t.seq, t.pendT, t.pendV, t.nsub)) =
      some (0x0C000009, buildSeq 0x40 2, 0x41, 1, 2) := by decide
/-- Section 4.3. -/
theorem test_ecMaxoff_starts :
    (issued 0x000000000000000D opened).map
        (fun t => (statusWord t.status, t.seq, t.pendT, t.pendV, t.nsub)) =
      some (0x0D000009, buildSeq 0x41 0, 0x40, 1, 2) := by decide
/-- Section 3: reserved opcodes. -/
theorem test_reserved0 : statusOf (issued 0x0000000000000000 State.reset) = some 0x00000010 := by decide
theorem test_reserved6 : statusOf (issued 0x0000000000000006 State.reset) = some 0x06000010 := by decide
theorem test_reservedF : statusOf (issued 0x000000000000000F State.reset) = some 0x0F000010 := by decide
/-- Section 3: RSV1 set in FRM.SEND leaves FRAME_VALID. -/
theorem test_frmSend_rsv1 :
    statusOf (issued 0x0100000000000004 { opened with status := { Status.reset with frameValid := true } }) =
      some 0x04000014 := by decide

/-! The steps that follow acceptance. -/

/-- Section 3: DEVICE_ABSENT from HIDT. -/
theorem test_hidAnswer_deviceAbsent :
    statusOf (moved (.hidAnswer .deviceAbsent)
      { opened with
        phase := .hidWait, outstanding := some (.hid State.reset.frame)
        status := { Status.reset with frameValid := true, busy := true, lastOp := 0x4 } }) = some 0x04000334 := by
  decide
/-- Section 4.4, first row. -/
theorem test_fail_data_write_pair_5 :
    statusOf (moved (.portAnswer .ioError) (waiting 0xB 1 0 5 .ecDatWait 0x41 1)) = some 0x0B915548 := by decide
/-- Section 4.4, the EC.MAXON row. -/
theorem test_fail_index_write_subseq_1 :
    statusOf (moved (.portAnswer .permissionDenied) (waiting 0xC 2 1 6 .ecIdxWait 0x41 1)) = some 0x0CA06A48 := by
  decide
/-- R213: SETTLE_CNT is loaded with SETTLE_US + 1, in 17 bits at the largest SETTLE_US. -/
theorem test_settle_load_is_17_bits :
    (moved (.portAnswer .ok) { waiting 0x9 1 0 0 .ecDatWait 0x41 1 with settleUs := 65535 }).map
      (fun t => (t.phase, t.settleCnt)) = some (.ecSettle, 65536) := by decide
/-- R216: the second sequence of EC.MAXON. -/
theorem test_next_subsequence :
    (moved .block { running 0xC 2 0 7 .ecSettle 0x40 2 with pendT := 0x41, pendV := 1 }).map
      (fun t => (t.phase, t.subseq, t.stepIx, t.seq)) = some (.ecIdx, 1, 0, buildSeq 0x41 1) := by decide
/-- R217 and section 4.3: completion. -/
theorem test_completion :
    (moved .block (running 0x9 1 0 7 .ecSettle 0x41 1)).map (fun t => (t.phase, statusWord t.status)) =
      some (.idle, 0x0900000A) := by decide
/-- R79: a tick ends an exact delivery, the trigger write's latency having passed. -/
theorem test_delivery_commits :
    (moved .tick { opened with ec := { Ec.powerUp with pairs := (buildSeq 0x41 1).toList.reverse, latencyUs := 0 } }).map
      (fun t => (t.ec.known 0x41, t.ec.known 0x40)) = some (some 1, none) := by decide
/-- R80, R81: FOREIGN's register writes with a cycle of the latch before an exact sequence leave the other bytes
unknown. -/
theorem test_cycled_writes_before_a_delivery :
    (moved .tick
      { opened with
        ec := { Ec.powerUp with
          ram := [(0x40, 2)], latencyUs := 0
          pairs := (buildSeq 0x41 1).toList.reverse ++ [⟨0x92, 0x01⟩, ⟨0x92, 0x00⟩] } }).map
      (fun t => (t.ec.known 0x41, t.ec.known 0x40)) = some (some 1, none) := by decide
/-- R80: without a cycle of the latch EC_RAM is unchanged, trigger write or not. -/
theorem test_uncycled_writes_without_a_trigger :
    (moved .tick
      { opened with ec := { Ec.powerUp with ram := [(0x40, 2)], latencyUs := 0, pairs := [⟨0x91, 0x41⟩] } }).map
      (fun t => t.ec.known 0x40) = some (some 2) := by decide
/-- R81: the latch and the pending pair stay unknown after a register write. -/
theorem test_register_write_leaves_unknown_unknown :
    (Ec.powerUp.pairDone ⟨0x92, 0x01⟩).latch = none ∧ (Ec.powerUp.pairDone ⟨0x91, 0x41⟩).pendAddr = none ∧
    (Ec.powerUp.pairDone ⟨0xA0, 0x01⟩).pendVal = none := by decide
/-- Section 4.6: host reads after reset. -/
theorem test_host_reads_after_reset :
    hostRead State.reset 0x00 = 0 ∧ hostRead State.reset 0x01 = 0x1388 ∧ hostRead State.reset 0x10 = 0 ∧
    hostRead State.reset 0x02 = 0 ∧ hostRead State.reset 0x51 = 0 ∧ hostRead State.reset 0x68 = 0 ∧
    hostRead State.reset 0xFF = 0 := by decide

/-! Witnesses: for each statement with hypotheses, a state and operands that meet all of them, one for each clause
and at the ends of a clause's range. -/

theorem witness_DecodedWordLiesInItsRow : ∃ w i, decode w = .ok i := ⟨0x0000000000015502, .frmLegacy 1 0 0 0 0, by decide⟩

theorem witness_UnusedFieldsAreIgnored : ∃ w w' : CmdWord, w ≠ w' ∧ w &&& usedBits w.op = w' &&& usedBits w.op :=
  ⟨0x0000000000015502, 0x0000000000010002, by decide⟩

theorem witness_AssembledLineDecodesToItsCommand :
    (AsmLine.cfgSettle 65535).assemble = some 0x0000000000FFFF05 ∧
    (AsmLine.frmZoned (.num 255) (.num 7) 255 0 0 255).assemble = some 0x00FF0000FF07FF01 ∧
    (AsmLine.frmPerf (.name .gaming)).assemble = some 0x0000000000004203 ∧
    (AsmLine.ecPerf (.name .gaming)).assemble = some 0x000000000000020A ∧
    (AsmLine.cfgSettle 65536).assemble = none ∧ (AsmLine.ecFan (.num 256)).assemble = none := by decide

theorem witness_StepRunsTheDecodedCommand : ∃ (s : State) (w : CmdWord) (i : Instr) (rest : List Move),
    s.sched = .issue w :: rest ∧ s.phase = .idle ∧ decode w = .ok i :=
  ⟨placed (.issue 0x000000000000000C) opened, _, .ecMaxon, [], rfl, rfl, by decide⟩

theorem witness_EveryAcceptanceSetsLastOp : ∃ (s : State) (w : CmdWord) (rest : List Move),
    s.sched = .issue w :: rest ∧ s.phase = .idle ∧ w.op = 0xF :=
  ⟨placed (.issue 0x010000000000000F) opened, _, [], rfl, rfl, by decide⟩

theorem witness_BusyPortAcceptsNothing : ∃ (s : State) (w : CmdWord) (rest : List Move),
    s.sched = .issue w :: rest ∧ s.phase ≠ .idle :=
  ⟨placed (.issue 0x000000000000000C) (running 0x9 1 0 0 .ecIdx 0x41 1), _, [], rfl, by decide⟩

theorem witness_ReservedBitsRaiseInvalidArgument : ∃ (s : State) (w w' : CmdWord),
    (placed (.issue w) s).sched = [.issue w] ∧ s.phase = .idle ∧ w.rsv0 ≠ 0 ∧ w.op = 0x3 ∧ w'.rsv1 ≠ 0 ∧ w'.op = 0x8 :=
  ⟨opened, 0x0000000000004213, 0x8000000000014108, by decide⟩

theorem witness_ReservedOpcodeWordsRaiseInvalidArgument : ∃ (s : State) (w : CmdWord) (rest : List Move),
    s.sched = .issue w :: rest ∧ s.phase = .idle ∧ w.op ∈ [0x0, 0x6, 0x7, 0xE, 0xF] :=
  ⟨placed (.issue 0x0000000000000000) opened, _, [], rfl, rfl, by decide⟩

theorem witness_ReservedOpcodesOnlyRaise :
    ∃ i : Instr, i ∈ [Instr.reserved0, .reserved6, .reserved7, .reservedE, .reservedF] := ⟨.reserved7, by decide⟩

theorem witness_ZonedBuildCommitsItsFrame : (4 : Byte).toNat ≤ 4 ∧ (6 : Byte).toNat ≤ 6 ∧ byte1At 4 6 = 0x76 := by decide

theorem witness_LegacyBuildCommitsItsFrame : (6 : Byte).toNat ≤ 6 := by decide

theorem witness_PerfBuildCommitsItsFrame :
    (0x40 : Byte) ∈ [(0x40 : Byte), 0x41, 0x42] ∧ (0x42 : Byte) ∈ [(0x40 : Byte), 0x41, 0x42] := by decide

theorem witness_RefusedBuildKeepsTheFrame :
    (4 < (5 : Byte).toNat ∧ 6 < (7 : Byte).toNat) ∧ (0x43 : Byte) ∉ [(0x40 : Byte), 0x41, 0x42] ∧
    (0x3F : Byte) ∉ [(0x40 : Byte), 0x41, 0x42] := by decide

theorem witness_LegacyEqualsZonedAll : (0 : Byte).toNat ≤ 6 ∧ (6 : Byte).toNat ≤ 6 := by decide

theorem witness_BuildersReadOnlyTheirOperands : ∃ i j k : Instr,
    i.opcode = 0x1 ∧ i.wellFormed = true ∧ j.opcode = 0x2 ∧ j.wellFormed = true ∧ k.opcode = 0x3 ∧ k.wellFormed = true :=
  ⟨.frmZoned 4 6 255 255 255 255, .frmLegacy 6 0 0 0 0, .frmPerf 0x42, by decide⟩

theorem witness_ChecksumIsTheSumOfBytes1To62 : ∃ i : Instr, i.opcode ∈ [0x1, 0x2, 0x3] ∧ i.wellFormed = true :=
  ⟨.frmZoned 4 6 255 255 255 255, by decide⟩

theorem witness_SendStartsTheTransfer : ∃ s : State, s.status.frameValid = true ∧ s.hidOpen = true :=
  ⟨{ opened with status := { Status.reset with frameValid := true } }, rfl, rfl⟩

theorem witness_SendReportsItsErrorsInOrder : ∃ s s' : State,
    (s.status.frameValid = false ∧ s.hidOpen = false) ∧ s'.status.frameValid = true ∧ s'.hidOpen = false :=
  ⟨State.reset, { State.reset with status := { Status.reset with frameValid := true } }, by decide⟩

/-- A FRM.SEND in progress, with the frame of FRM.PERF Gaming. -/
def sending (p : Phase) : State :=
  { opened with
    phase := p, frame := perfFrame 0x42
    status := { Status.reset with busy := true, frameValid := true, lastOp := 0x4 } }

theorem witness_SendTransfersTheFrame : ∃ s s' : State, ∃ f,
    (s.sched = [.block] ∧ s.phase = .hidReq) ∧
    s'.sched = [.hidAnswer .ioError] ∧ s'.phase = .hidWait ∧ s'.outstanding = some (.hid f) :=
  ⟨placed .block (sending .hidReq),
    placed (.hidAnswer .ioError) { sending .hidWait with outstanding := some (.hid (perfFrame 0x42)) },
    _, ⟨rfl, rfl⟩, rfl, rfl, rfl⟩

theorem witness_SettleCommandRespectsTheFloor : 1000 ≤ (1000 : Micros).toNat ∧ (999 : Micros).toNat < 1000 := by decide

theorem witness_SingleSequenceCommandsStart :
    opened.ecOpen = true ∧ (2 : Byte).toNat ≤ 2 ∧ (1 : Byte).toNat ≤ 1 := by decide

theorem witness_CompositeCommandsStart : opened.ecOpen = true := rfl

theorem witness_ClosedPortRaisesDeviceNotFound :
    State.reset.ecOpen = false ∧ (2 : Byte).toNat ≤ 2 ∧ (1 : Byte).toNat ≤ 1 := by decide

theorem witness_EcOperandsOutOfDomainRefused : 2 < (3 : Byte).toNat ∧ 1 < (2 : Byte).toNat := by decide

theorem witness_CommandsTouchNoDevice : ∃ (i : Instr) (s t : State), exec i s = .next t :=
  ⟨.ecExec 0x41 1, opened, _, rfl⟩

theorem witness_BlockIssuesIndexThenData : ∃ s s' : State,
    (s.sched = [.block] ∧ s.phase = .ecIdx) ∧ s'.sched = [.block] ∧ s'.phase = .ecDat :=
  ⟨placed .block (running 0x9 1 0 0 .ecIdx 0x41 1), placed .block (running 0x9 1 0 7 .ecDat 0x41 1), by decide⟩

theorem witness_OkAnswerMovesOn : ∃ s s' : State,
    (s.sched = [.portAnswer .ok] ∧ s.phase = .ecIdxWait ∧ s.outstanding = some (.port .index 0x94)) ∧
    s'.sched = [.portAnswer .ok] ∧ s'.phase = .ecDatWait ∧ s'.outstanding = some (.port .data 0xA1) :=
  ⟨placed (.portAnswer .ok) (waiting 0x9 1 0 0 .ecIdxWait 0x41 1),
    placed (.portAnswer .ok) (waiting 0x9 1 0 7 .ecDatWait 0x41 1), by decide⟩

theorem witness_OkAnswerMovesOn_short_settle : ∃ s : State,
    s.sched = [.portAnswer .ok] ∧ s.phase = .ecDatWait ∧ s.outstanding = some (.port .data 0xA1) ∧
    s.settleUs.toNat < s.ec.latencyUs :=
  ⟨placed (.portAnswer .ok)
    { waiting 0x9 1 0 7 .ecDatWait 0x41 1 with settleUs := 1000, ec := { Ec.powerUp with latencyUs := 1001 } },
    by decide⟩

theorem witness_FailedWriteAbortsAndIsLocated : ∃ s s' : State,
    (s.sched = [.portAnswer .ioError] ∧ s.outstanding = some (.port .index 0x94) ∧ s.phase = .ecIdxWait) ∧
    s'.sched = [.portAnswer .deviceAbsent] ∧ s'.outstanding = some (.port .data 0xA1) ∧ s'.phase = .ecDatWait :=
  ⟨placed (.portAnswer .ioError) (waiting 0xC 2 0 0 .ecIdxWait 0x40 2),
    placed (.portAnswer .deviceAbsent) (waiting 0xC 2 1 7 .ecDatWait 0x41 1), by decide⟩

theorem witness_TickOnlyCountsTheSettleDelay : ∃ s s' : State,
    (s.sched = [.tick] ∧ s.phase = .ecSettle ∧ s.settleCnt = 0) ∧ s'.sched = [.tick] ∧ s'.phase = .ecSettle ∧
      s'.settleCnt = 65536 :=
  ⟨placed .tick (running 0x9 1 0 0 .ecSettle 0x41 1),
    placed .tick { running 0x9 1 0 0 .ecSettle 0x41 1 with settleCnt := 65536 }, by decide⟩

theorem witness_SettleEndAdvances : ∃ s₁ s₂ s₃ s₄ : State,
    (s₁.sched = [.block] ∧ s₁.phase = .ecSettle ∧ s₁.settleCnt ≠ 0) ∧
    (s₂.sched = [.block] ∧ s₂.phase = .ecSettle ∧ s₂.settleCnt = 0 ∧ s₂.stepIx ≠ 7) ∧
    (s₃.sched = [.block] ∧ s₃.phase = .ecSettle ∧ s₃.settleCnt = 0 ∧ s₃.stepIx = 7 ∧
      s₃.subseq.toNat + 1 < s₃.nsub.toNat) ∧
    s₄.sched = [.block] ∧ s₄.phase = .ecSettle ∧ s₄.settleCnt = 0 ∧ s₄.stepIx = 7 ∧
      s₄.nsub.toNat ≤ s₄.subseq.toNat + 1 :=
  ⟨placed .block { running 0x9 1 0 0 .ecSettle 0x41 1 with settleCnt := 1 },
    placed .block (running 0x9 1 0 6 .ecSettle 0x41 1),
    placed .block { running 0xC 2 0 7 .ecSettle 0x40 2 with pendT := 0x41, pendV := 1 },
    placed .block (running 0xC 2 1 7 .ecSettle 0x41 1), by decide⟩

theorem witness_HostRegisterMap :
    64 < 65 ∧ (BitVec.ofNat 8 (0x10 + 64) : HostAddr) = 0x50 ∧ 7 < 8 ∧ (BitVec.ofNat 8 (0x60 + 7) : HostAddr) = 0x67 ∧
    ∀ a ∈ [(0x02 : HostAddr), 0x0F, 0x51, 0x5F, 0x68, 0xFF],
      2 ≤ a.toNat ∧ a.toNat ≤ 0x0F ∨ 0x51 ≤ a.toNat ∧ a.toNat ≤ 0x5F ∨ 0x68 ≤ a.toNat := by decide

theorem witness_HostReadsChangeNothing : ∃ (s t : State) (a : HostAddr) (rest : List Move),
    s.sched = .read a :: rest ∧ s.phase = .ecSettle ∧
    t.status = s.status ∧ t.settleUs = s.settleUs ∧ t.frame = s.frame ∧ t.seq = s.seq ∧ t.sched ≠ s.sched :=
  ⟨placed (.read 0x67) (running 0x9 1 0 0 .ecSettle 0x41 1), running 0x9 1 0 0 .ecSettle 0x41 1, 0x67, [], by decide⟩

theorem witness_InputsAreSampledAtAcceptanceOnly : ∃ s₁ s₂ s s' : State,
    s₁.sched = [.setHidOpen false] ∧ s₂.sched = [.setEcOpen false] ∧
    s.phase ≠ .idle ∧ (∀ v, (nextMove s).1 ≠ .setHidOpen v ∧ (nextMove s).1 ≠ .setEcOpen v) ∧ step s = .next s' :=
  ⟨placed (.setHidOpen false) (sending .hidWait), placed (.setEcOpen false) (running 0x9 1 0 0 .ecIdx 0x41 1),
    placed .block (running 0x9 1 0 0 .ecIdx 0x41 1), _, rfl, rfl, by decide, by decide, rfl⟩

theorem witness_ResetInputResetsTheBlock : ∃ (s : State) (rest : List Move),
    s.sched = .reset :: rest ∧ s.outstanding.isSome = true :=
  ⟨placed .reset (waiting 0x9 1 0 0 .ecIdxWait 0x41 1), [], by decide⟩

theorem witness_LateAnswerIsOnlyRecorded : ∃ (s : State) (rest : List Move),
    s.sched = .lateAnswer 0 .ok :: rest ∧ s.abandoned[0]? = some (.port .index 0x94) :=
  ⟨placed (.lateAnswer 0 .ok) { opened with abandoned := [.port .index 0x94] }, [], by decide⟩

theorem witness_ForeignWriteSpoilsARunningSequence : ∃ (s : State) (rest : List Move),
    s.sched = .foreignWrite .data 0xFF .ioError :: rest ∧ s.phase.isEc = true :=
  ⟨placed (.foreignWrite .data 0xFF .ioError) (running 0x9 1 0 3 .ecSettle 0x41 1), [], by decide⟩

/-- FOREIGN has begun a delivery, without a cycle of the latch, and the gap has passed. -/
def halfDelivered : State := { quick with ec := { quick.ec with pairs := [⟨0x91, 0x40⟩], ticks := 1 } }

theorem witness_CleanForeignDeliveryCommits : ∃ (s : State) (t v : Byte) (n : Nat) (rest : List Move),
    s.phase.isEc = false ∧ s.ec.latencyUs + 1 ≤ n ∧ s.ec.inProgress = true ∧ s.ec.settled = true ∧
    s.sched = foreignMoves (buildSeq t v).toList n ++ rest :=
  ⟨{ halfDelivered with sched := foreignMoves (buildSeq 0x40 2).toList 1 ++ [.tick] }, 0x40, 2, 1, [.tick], by decide⟩

theorem witness_DeliveryWithoutLatchCycleIsIgnored :
    ∃ (s : State) (ps : List Pair) (n : Nat) (rest : List Move),
      s.phase.isEc = false ∧ s.ec.inProgress = false ∧ (s.ec.stale = true → s.ec.ram = []) ∧
      s.ec.latencyUs + 1 ≤ n ∧ latchCycled ps.reverse = false ∧
      s.sched = foreignMoves ps n ++ rest ∧ triggerPair ∈ ps :=
  ⟨{ quick with sched := foreignMoves [⟨0x92, 0x01⟩, ⟨0x92, 0x00⟩, triggerPair] 1 },
    [⟨0x92, 0x01⟩, ⟨0x92, 0x00⟩, triggerPair], 1, [], by decide⟩

/-- A state whose EC has received all of `buildSeq 0x41 1`. -/
def delivered : State :=
  { opened with ec := { Ec.powerUp with pairs := (buildSeq 0x41 1).toList.reverse, latencyUs := 0 } }

theorem witness_EcRamChangesOnlyByDelivery : ∃ s s' : State,
    step s = .next s' ∧ Memory.read s'.ec.ram 0x41 = some 1 ∧ Memory.read s.ec.ram 0x41 ≠ some 1 :=
  ⟨placed .tick delivered, _, rfl, by decide, by decide⟩

theorem witness_EveryStepKeepsDeliveryOnRecord : ∃ s s' : State,
    s.ec.pairs ≠ [] ∧ DeliveryOnRecord s ∧ step s = .next s' :=
  ⟨placed .tick
    { opened with
      history := [.portWrite .foreign .data 0x00 .ok, .portWrite .foreign .index 0x94 .ok]
      ec := { Ec.powerUp with pairs := [⟨0x94, 0x00⟩] } },
    _, by decide, by unfold DeliveryOnRecord; decide, rfl⟩

/-- A busy block that meets the invariant: EC.MAXON when the settle delay of its first sequence has ended. -/
def betweenSequences : State := { running 0xC 2 0 7 .ecSettle 0x40 2 with pendT := 0x41, pendV := 1 }

theorem inv_betweenSequences : Inv betweenSequences where
  busy := by decide
  running := by decide
  done := by decide
  cause := by decide
  failZero := by decide
  failPlace := by decide
  outstanding := rfl
  settleFloor := by decide
  settleCnt := by decide
  frameSealed := .inl rfl
  frameValid := fun h => absurd h (by decide)
  sending := by decide
  seqValid := fun _ => ⟨0x40, 2, rfl⟩
  position := by decide
  ecRam := rfl
  ecStale := fun _ => rfl

/-- Placing a move leaves the block as it is. -/
theorem inv_placed {s : State} (m : Move) (h : Inv s) : Inv (placed m s) :=
  { h with outstanding := h.outstanding }

theorem witness_EveryStepKeepsTheInvariant : ∃ s s' : State, s.phase ≠ .idle ∧ Inv s ∧ step s = .next s' :=
  ⟨placed .tick betweenSequences, _, by decide, inv_placed _ inv_betweenSequences, rfl⟩

theorem witness_BusyBlockCanAlwaysProgress : ∃ s : State, Inv s ∧ s.phase ≠ .idle :=
  ⟨betweenSequences, inv_betweenSequences, by decide⟩

theorem witness_EveryStepKeepsTheCommandsSequence : ∃ s s' : State,
    s.phase.isEc = true ∧ RunsItsSequence s ∧ step s = .next s' :=
  ⟨placed .block betweenSequences, _, rfl,
    fun _ => .inr (.inr (.inr (.inl (by decide)))), rfl⟩

theorem witness_EveryCommandIsAnswered : ∃ s s' : State, Inv s ∧ AnswersEveryCommand s ∧ step s = .next s' :=
  ⟨placed .block betweenSequences, _, inv_placed _ inv_betweenSequences, fun h => absurd h (by decide), rfl⟩

theorem witness_SettleDelayIsNeverShort : ∃ s s' : State,
    SettleAccounted s ∧ (∀ k resp, (nextMove s).1 ≠ .lateAnswer k resp) ∧ step s = .next s' ∧
    s.phase = .ecSettle ∧ s'.phase = .ecIdx :=
  ⟨{ running 0x9 1 0 0 .ecSettle 0x41 1 with
      settleUs := 1, sched := [.block], history := [.tick, .tick, .portWrite .block .data 0x00 .ok] },
    _, fun _ => by decide, fun _ _ h => (by cases h), rfl, rfl, by decide⟩

theorem witness_SettleUsAndSeqValidHaveTheirWriters : ∃ s s' t t' : State,
    (step s = .next s' ∧ s'.settleUs ≠ s.settleUs) ∧
    step t = .next t' ∧ t.status.seqValid = true ∧ t'.status.seqValid = false :=
  ⟨placed (.issue 0x000000000003E805) opened, _, placed .reset (running 0x9 1 0 0 .ecIdx 0x41 1), _,
    ⟨rfl, by decide⟩, rfl, rfl, rfl⟩

theorem witness_OnlyBuildsWriteTheFrame : ∃ s s' : State,
    step s = .next s' ∧ s'.status.frameValid ≠ s.status.frameValid ∧ s'.frame ≠ s.frame ∧ (nextMove s).1 ≠ .reset :=
  ⟨placed (.issue 0x0000000000004203) opened, _, rfl, by decide, by decide, by decide⟩

theorem witness_SingleSequencesCompleteInTheirSteps : ∃ (s : State) (i : Instr) (t v : Byte) (rest : List Move),
    RunsOne i t v ∧ s.phase = .idle ∧ s.ecOpen = true ∧
    s.sched = .issue (encode i) :: (sequenceMoves 8 (s.settleUs.toNat + 1) ++ rest) :=
  ⟨{ quick with sched := .issue (encode (.ecPerf 2)) :: sequenceMoves 8 1 }, .ecPerf 2, 0x40, 2, [],
    .inr (.inl (by decide)), by decide⟩

theorem witness_CompositesCompleteInTheirSteps : ∃ (s : State) (rest : List Move),
    s.phase = .idle ∧ s.ecOpen = true ∧
    s.sched = .issue (encode .ecMaxoff) :: (sequenceMoves 16 (s.settleUs.toNat + 1) ++ rest) :=
  ⟨{ quick with sched := .issue (encode .ecMaxoff) :: sequenceMoves 16 1 }, [], by decide⟩

/-- Whether a run of `n` steps ends with DONE. -/
def endsDone (n : Nat) (s : State) : Bool :=
  match core.run n s with
  | .next t => t.status.done
  | .fault _ => false
  | .refused _ => false

theorem exists_of_endsDone {n : Nat} {s : State} (h : endsDone n s = true) :
    ∃ s', core.run n s = .next s' ∧ s'.status.done = true := by
  unfold endsDone at h
  split at h
  · exact ⟨_, by assumption, h⟩
  · cases h
  · cases h

/-- EC.EXEC on the quick state, while FOREIGN's delivery is unfinished. -/
def quickExec : State := { halfDelivered with sched := .issue (encode (.ecExec 0x41 1)) :: sequenceMoves 8 1 }

theorem quickExec_ends : endsDone 49 quickExec = true := by decide

/-- Meets the premises of CompletedExecMadeItsSixteenWrites and CompletedSequenceSetsEcRam. -/
theorem witness_CompletedExec : ∃ (s s' : State) (t v : Byte) (ms rest : List Move),
    RunsOne (.ecExec t v) t v ∧ s.phase = .idle ∧ (∀ m ∈ ms, quiet m = true) ∧ s.ec.inProgress = true ∧
    s.ec.settled = true ∧ s.ec.latencyUs ≤ s.settleUs.toNat ∧
    s.sched = .issue (encode (.ecExec t v)) :: (ms ++ rest) ∧
    core.run (ms.length + 1) s = .next s' ∧ s'.status.done = true := by
  obtain ⟨s', h, hd⟩ := exists_of_endsDone quickExec_ends
  exact ⟨quickExec, s', 0x41, 1, sequenceMoves 8 1, [], .inl rfl, rfl, by decide, by decide, by decide, by decide,
    by decide, h, hd⟩

/-- EC.MAXON and EC.MAXOFF on the quick state. -/
def quickComposite (i : Instr) : State := { quick with sched := .issue (encode i) :: sequenceMoves 16 1 }

theorem quickMaxon_ends : endsDone 97 (quickComposite .ecMaxon) = true := by decide

theorem quickMaxoff_ends : endsDone 97 (quickComposite .ecMaxoff) = true := by decide

theorem witness_CompletedCompositeSetsBothRegisters (i : Instr) (hi : i = .ecMaxon ∨ i = .ecMaxoff) :
    ∃ (s s' : State) (ms rest : List Move),
      s.phase = .idle ∧ (∀ m ∈ ms, quiet m = true) ∧ s.ec.settled = true ∧ s.ec.latencyUs ≤ s.settleUs.toNat ∧
      s.sched = .issue (encode i) :: (ms ++ rest) ∧
      core.run (ms.length + 1) s = .next s' ∧ s'.status.done = true := by
  obtain ⟨s', h, hd⟩ :=
    exists_of_endsDone (n := 97) (s := quickComposite i)
      (by rcases hi with rfl | rfl; exacts [quickMaxon_ends, quickMaxoff_ends])
  exact ⟨quickComposite i, s', sequenceMoves 16 1, [], rfl, by decide, rfl, Nat.le_refl 0, by simp [quickComposite],
    h, hd⟩

end Sys2Proof.Tests
end

section
/-! SUPPORT. What a step does, seen from the state before it: the words the decoder rejects, the stores each agent
writes, and that no step of a busy block but the caller's own depends on the inputs. -/

namespace Sys2Proof.Machine

open Sys2Proof.Safety

/-! Steps: a move that is placed, a step seen from the state itself, and a step of a busy block. -/

/-- With a move placed, the step is that move. -/
theorem step_of_sched {s : State} {m : Move} {rest : List Move} (h : s.sched = m :: rest) :
    step s = act m { s with sched := rest } := by
  simp [step, nextMove, h]

/-- What a step leaves behind; of the state before it only the schedule and the count of draws have moved on. -/
theorem exists_acted_of_step {s t : State} (h : step s = .next t) :
    ∃ l d, Acted (nextMove s).1 { s with sched := l, draws := d } t := by
  obtain ⟨l, d, he⟩ := nextMove_state s
  exact ⟨l, d, he ▸ acted_of_step h⟩

@[simp] theorem nextMove_phase (s : State) : (nextMove s).2.phase = s.phase := by
  obtain ⟨l, d, he⟩ := nextMove_state s
  rw [he]

/-- While PHASE is not IDLE every move is one of the environment: the command port accepts nothing (R73). -/
theorem act_of_busy {m : Move} {s : State} (h : s.phase ≠ .idle) : act m s = .next (envStep m s) := by
  cases m with
  | issue w => exact if_neg h
  | _ => rfl

theorem step_of_busy {s : State} (h : s.phase ≠ .idle) : step s = .next (envStep (nextMove s).1 (nextMove s).2) :=
  act_of_busy (by simpa using h)

/-! Words the decoder rejects. -/

/-- A rejected word's opcode is the one the decoder names (R133). -/
theorem op_of_decode_error {w : CmdWord} {op : BitVec 4} (h : decode w = .error (.reservedField op)) :
    op = w.op := by
  unfold decode at h
  split at h
  case h_6 =>
    split at h
    · simpa using h.symm
    · split at h <;> cases h
  all_goals cases h

/-- A rejected word raises InvalidArgument; where its opcode is a build's it is a failed build (R111, R161). -/
theorem rejectWord_cases {w : CmdWord} {r : DecodeReject} (h : decode w = .error r) (s : State) :
    rejectWord r s = raiseInvalid s ∨ w.op ∈ [0x1, 0x2, 0x3] ∧ rejectWord r s = failBuild s := by
  obtain ⟨op⟩ := r
  simp only [rejectWord, ← op_of_decode_error h]
  split
  case isTrue hop => exact .inr ⟨by simpa using hop, rfl⟩
  case isFalse => exact .inl rfl

/-! LAST_OP and the record of acceptance (R43, R73, R93). -/

/-- No meaning of a command writes LAST_OP or records an event. -/
theorem accepted_lastOp_history {i : Instr} {s t : State} (h : Accepted i s t) :
    t.status.lastOp = s.status.lastOp ∧ t.history = s.history := by
  cases h <;> exact ⟨rfl, rfl⟩

/-- Every acceptance sets LAST_OP and is recorded. -/
theorem issueStep_lastOp_history (w : CmdWord) (s : State) :
    ∃ t, issueStep w s = .next t ∧ t.status.lastOp = w.op ∧ t.history = .accept w :: s.history := by
  unfold issueStep
  split
  case h_1 i _ =>
    obtain ⟨t, ht, ha⟩ := exec_cases i (accept w s)
    exact ⟨t, ht, accepted_lastOp_history ha⟩
  case h_2 r hd =>
    refine ⟨_, rfl, ?_⟩
    obtain he | ⟨-, he⟩ := rejectWord_cases hd (accept w s) <;> rw [he] <;> exact ⟨rfl, rfl⟩

/-! Who writes SETTLE_US, FRAME and FRAME_VALID, and who clears SEQ_VALID. -/

/-- SETTLE_US, FRAME and FRAME_VALID are kept, and SEQ_VALID is not cleared. -/
structure KeepsStores (s t : State) : Prop where
  settleUs : t.settleUs = s.settleUs
  frame : t.frame = s.frame
  frameValid : t.status.frameValid = s.status.frameValid
  seqValid : s.status.seqValid = true → t.status.seqValid = true

/-- The settle counter is none of them. -/
theorem settleTick_keepsStores (s : State) : KeepsStores s (settleTick s) := by
  unfold settleTick
  split <;> exact ⟨rfl, rfl, rfl, id⟩

/-- No move but the host's issue and reset writes SETTLE_US, FRAME or FRAME_VALID or clears SEQ_VALID. -/
theorem moved_keepsStores {m : Move} {s t : State} (h : Moved m s t) : m = .reset ∨ KeepsStores s t := by
  cases h with
  | wasReset hm => exact .inl hm
  | hidAnswered f r _ _ _ =>
    unfold hidRespond; split <;> exact .inr ⟨rfl, rfl, rfl, id⟩
  | indexAnswered b r _ _ _ =>
    unfold indexRespond; split <;> exact .inr ⟨rfl, rfl, rfl, id⟩
  | dataAnswered b r _ _ _ =>
    unfold dataRespond; split <;> exact .inr ⟨rfl, rfl, rfl, id⟩
  | ticked _ =>
    exact .inr { settleTick_keepsStores (record .tick { s with ec := s.ec.tick }) with }
  | nextSequence => exact .inr ⟨rfl, rfl, rfl, fun _ => rfl⟩
  | _ => exact .inr ⟨rfl, rfl, rfl, id⟩

section
variable {i : Instr} {s t : State} (h : Accepted i s t)
include h

/-- Of the meanings only CFG.SETTLE writes SETTLE_US (R45). -/
theorem accepted_settleUs : t.settleUs = s.settleUs ∨ i = .cfgSettle t.settleUs := by
  cases h with
  | settle us hi _ => exact .inr hi
  | _ => exact .inl rfl

/-- No meaning clears SEQ_VALID (R39). -/
theorem accepted_seqValid (hv : s.status.seqValid = true) : t.status.seqValid = true := by
  cases h with
  | filled => rfl
  | started => rfl
  | _ => exact hv

/-- Of the meanings only the builds write FRAME or FRAME_VALID, and a refused one leaves FRAME (R46, R161). -/
theorem accepted_frame :
    t.frame = s.frame ∧ t.status.frameValid = s.status.frameValid ∨
      i.opcode ∈ [0x1, 0x2, 0x3] ∧ (t.frame = s.frame ∨ t.status.frameValid = true) := by
  cases h with
  | built f _ hop => exact .inr ⟨hop, .inr rfl⟩
  | notBuilt hop => exact .inr ⟨hop, .inl rfl⟩
  | _ => exact .inl ⟨rfl, rfl⟩
end

section
variable {m : Move} {s t : State} (h : Acted m s t)
include h

/-- Only CFG.SETTLE and reset write SETTLE_US (R45). -/
theorem acted_settleUs : t.settleUs = s.settleUs ∨ m = .reset ∨
    ∃ w, m = .issue w ∧ decode w = .ok (.cfgSettle t.settleUs) ∧ s.phase = .idle := by
  cases h with
  | accepted w i t hm hp hd ha =>
    obtain hk | hi := accepted_settleUs ha
    · exact .inl hk
    · exact .inr (.inr ⟨w, hm, hi ▸ hd, hp⟩)
  | rejected w r hm hp hd =>
    obtain he | ⟨-, he⟩ := rejectWord_cases hd (accept w s) <;> rw [he] <;> exact .inl rfl
  | moved t hm =>
    obtain hr | hk := moved_keepsStores hm
    · exact .inr (.inl hr)
    · exact .inl hk.settleUs

/-- Only reset clears SEQ_VALID (R39). -/
theorem acted_seqValid (hv : s.status.seqValid = true) : m = .reset ∨ t.status.seqValid = true := by
  cases h with
  | accepted w i t hm hp hd ha => exact .inr (accepted_seqValid ha hv)
  | rejected w r hm hp hd =>
    obtain he | ⟨-, he⟩ := rejectWord_cases hd (accept w s) <;> rw [he] <;> exact .inr hv
  | moved t hm => exact (moved_keepsStores hm).imp_right fun hk => hk.seqValid hv

/-- Only the acceptance of a framer opcode and reset write FRAME or FRAME_VALID; a refused build leaves FRAME
(R38, R46, R161). -/
theorem acted_frame :
    t.frame = s.frame ∧ t.status.frameValid = s.status.frameValid ∨ m = .reset ∨
      (∃ w, m = .issue w ∧ w.op ∈ [0x1, 0x2, 0x3] ∧ s.phase = .idle) ∧
        (t.frame = s.frame ∨ t.status.frameValid = true) := by
  cases h with
  | accepted w i t hm hp hd ha =>
    obtain hk | ⟨hop, hf⟩ := accepted_frame ha
    · exact .inl hk
    · exact .inr (.inr ⟨⟨w, hm, opcode_of_decode hd ▸ hop, hp⟩, hf⟩)
  | rejected w r hm hp hd =>
    obtain he | ⟨hop, he⟩ := rejectWord_cases hd (accept w s) <;> rw [he]
    · exact .inl ⟨rfl, rfl⟩
    · exact .inr (.inr ⟨⟨w, hm, hop, hp⟩, .inl rfl⟩)
  | moved t hm =>
    obtain hr | hk := moved_keepsStores hm
    · exact .inr (.inl hr)
    · exact .inl ⟨hk.frame, hk.frameValid⟩
end

/-! The inputs hid_open and ec_open (R52, R310). -/

/-- The state with the inputs at these values (R52). -/
def withInputs (hid ec : Bool) (s : State) : State := { s with hidOpen := hid, ecOpen := ec }

section
variable (hid ec : Bool) (s : State)

@[simp] theorem withInputs_phase : (withInputs hid ec s).phase = s.phase := rfl
@[simp] theorem withInputs_outstanding : (withInputs hid ec s).outstanding = s.outstanding := rfl
@[simp] theorem withInputs_abandoned : (withInputs hid ec s).abandoned = s.abandoned := rfl
@[simp] theorem withInputs_sched : (withInputs hid ec s).sched = s.sched := rfl

theorem withInputs_ite {c : Prop} [Decidable c] (a b : State) :
    withInputs hid ec (if c then a else b) = if c then withInputs hid ec a else withInputs hid ec b :=
  apply_ite (withInputs hid ec) c a b

theorem settleAdvance_withInputs : settleAdvance (withInputs hid ec s) = withInputs hid ec (settleAdvance s) := by
  simp only [settleAdvance, withInputs_ite]
  rfl

theorem blockStep_withInputs : blockStep (withInputs hid ec s) = withInputs hid ec (blockStep s) := by
  unfold blockStep
  rw [withInputs_phase]
  split
  case h_4 => rw [withInputs_ite, settleAdvance_withInputs]; rfl
  all_goals rfl

theorem hidRespond_withInputs (f : Frame) (r : Resp) :
    hidRespond f r (withInputs hid ec s) = withInputs hid ec (hidRespond f r s) := by
  simp only [hidRespond, withInputs_ite]
  rfl

theorem indexRespond_withInputs (b : Byte) (r : Resp) :
    indexRespond b r (withInputs hid ec s) = withInputs hid ec (indexRespond b r s) := by
  simp only [indexRespond, withInputs_ite]
  rfl

theorem dataRespond_withInputs (b : Byte) (r : Resp) :
    dataRespond b r (withInputs hid ec s) = withInputs hid ec (dataRespond b r s) := by
  simp only [dataRespond, withInputs_ite]
  rfl

theorem hidAnswer_withInputs (r : Resp) :
    hidAnswer r (withInputs hid ec s) = withInputs hid ec (hidAnswer r s) := by
  unfold hidAnswer
  rw [withInputs_phase, withInputs_outstanding]
  split
  · exact hidRespond_withInputs hid ec s _ r
  · rfl

theorem portAnswer_withInputs (r : Resp) :
    portAnswer r (withInputs hid ec s) = withInputs hid ec (portAnswer r s) := by
  unfold portAnswer
  rw [withInputs_phase, withInputs_outstanding]
  split
  · exact indexRespond_withInputs hid ec s _ r
  · exact dataRespond_withInputs hid ec s _ r
  · rfl

theorem lateStep_withInputs (k : Nat) (r : Resp) :
    lateStep k r (withInputs hid ec s) = withInputs hid ec (lateStep k r s) := by
  unfold lateStep
  rw [withInputs_abandoned]
  split <;> rfl

theorem tickStep_withInputs : tickStep (withInputs hid ec s) = withInputs hid ec (tickStep s) := by
  simp only [tickStep, settleTick, withInputs_ite]
  rfl

/-- No move but the caller's own depends on the inputs. -/
theorem envStep_withInputs {m : Move} (hm : ∀ v, m ≠ .setHidOpen v ∧ m ≠ .setEcOpen v) :
    envStep m (withInputs hid ec s) = withInputs hid ec (envStep m s) := by
  cases m with
  | issue w => rfl
  | read a => rfl
  | block => exact blockStep_withInputs hid ec s
  | hidAnswer r => exact hidAnswer_withInputs hid ec s r
  | portAnswer r => exact portAnswer_withInputs hid ec s r
  | lateAnswer k r => exact lateStep_withInputs hid ec s k r
  | tick => exact tickStep_withInputs hid ec s
  | foreignWrite p b r => rfl
  | setHidOpen v => exact absurd rfl (hm v).1
  | setEcOpen v => exact absurd rfl (hm v).2
  | reset => rfl

theorem nextMove_withInputs :
    nextMove (withInputs hid ec s) = ((nextMove s).1, withInputs hid ec (nextMove s).2) := by
  unfold nextMove
  rw [withInputs_sched]
  split <;> rfl
end

end Sys2Proof.Machine
end

section
/-! SUPPORT. The fields of the STATUS word (spec/10_state.md R35). -/

namespace Sys2Proof.Machine

section
variable {w : Nat} (x : BitVec w)

/-- A field of a 32-bit word reads back at its own place. -/
theorem extractLsb'_field_same {k : Nat} (h : k + w ≤ 32) :
    (x.setWidth 32 <<< k).extractLsb' k w = x := by
  ext i hi
  simp (disch := omega) [BitVec.getLsbD_eq_getElem]

/-- A field of a 32-bit word leaves the places it does not reach 0. -/
theorem extractLsb'_field_other {k a n : Nat} (h : k + w ≤ a ∨ a + n ≤ k) :
    (x.setWidth 32 <<< k).extractLsb' a n = 0#n := by
  ext i hi
  obtain h | h := h
  · simp (disch := omega) [BitVec.getLsbD_of_ge]
  · have hk : a + i < k := by omega
    simp [hk]
end

theorem flagBit_eq_ofBool (b : Bool) : flagBit b = BitVec.ofBool b := by cases b <;> rfl

end Sys2Proof.Machine
end

section
/-! SUPPORT. The block's invariant (`Inv`) is kept by every operation: the EC's part of it, its three parts for the
block, and one lemma an operation. -/

namespace Sys2Proof.Machine

/-! The known part of the EC state. -/

/-- What EC_RAM's record must look like (the EC clauses of `Inv`): canonical, and empty after register writes that
were cut off (spec/20_memory.md R81). -/
structure EcRecord (e : Ec) : Prop where
  wf : Memory.wf e.ram = true
  stale : e.stale = true → e.ram = []

theorem Memory.wf_of_kept_or_lost {m m' : Memory} (hm : Memory.wf m = true) (h : m' = m ∨ m' = []) :
    Memory.wf m' = true := by
  rcases h with rfl | rfl
  · exact hm
  · exact Memory.wf_nil

theorem ecRecord_forget (e : Ec) : EcRecord e.forget := ⟨rfl, fun _ => rfl⟩

section
variable {e : Ec} (h : EcRecord e)
include h

theorem EcRecord.issueIndex (who : Writer) : EcRecord (e.issueIndex who) :=
  ⟨Memory.wf_of_kept_or_lost h.wf (issueIndex_ram e who), issueIndex_stale h.stale who⟩

theorem EcRecord.indexOk (who : Writer) (b : Byte) : EcRecord (e.indexOk who b) :=
  ⟨Memory.wf_of_kept_or_lost h.wf (indexOk_ram e who b), indexOk_stale h.stale who b⟩

theorem EcRecord.issueData (who : Writer) : EcRecord (e.issueData who) :=
  ⟨Memory.wf_of_kept_or_lost h.wf (issueData_ram e who), issueData_stale h.stale who⟩

theorem EcRecord.dataOk (who : Writer) (b : Byte) : EcRecord (e.dataOk who b) :=
  ⟨Memory.wf_of_kept_or_lost h.wf (dataOk_ram e who b), dataOk_stale h.stale who b⟩

theorem EcRecord.foreignWrite (p : Port) (b : Byte) (r : Resp) : EcRecord (e.foreignWrite p b r) :=
  ⟨Memory.wf_of_kept_or_lost h.wf (foreignWrite_ram e b p r), foreignWrite_stale h.stale p b r⟩

theorem EcRecord.tick : EcRecord e.tick where
  wf := by
    obtain ⟨t, v, -, -, -, hw | hw⟩ | hk := tick_ram e
    · rw [hw]; exact Memory.wf_write _ t v h.wf
    · rw [hw]; exact Memory.wf_write _ t v Memory.wf_nil
    · exact Memory.wf_of_kept_or_lost h.wf hk
  stale := tick_stale h.stale

theorem EcRecord.settleMargin (s : State) : EcRecord (settleMargin s e) := by
  unfold Machine.settleMargin
  split
  · exact ecRecord_forget e
  · exact h
end

end Sys2Proof.Machine

namespace Sys2Proof.Safety

open Sys2Proof.Machine

/-! The invariant in three parts: what the block stores, what STATUS answers, and what the phase in progress needs. -/

/-- The clauses of `Inv` on what the block and the EC store, in any phase. -/
structure Stored (s : State) : Prop where
  settleFloor : 1000 ≤ s.settleUs.toNat
  frameSealed : s.frame = Vector.replicate 65 0x00 ∨ Sealed s.frame
  frameValid : s.status.frameValid = true → Sealed s.frame
  seqValid : s.status.seqValid = true → ∃ t v, s.seq = buildSeq t v
  ec : EcRecord s.ec

/-- The clauses of `Inv` on the answer that STATUS shows: DONE, ERR, CAUSE and the FAIL_* fields (R40 to R42, R218). -/
structure Answer (st : Status) (seq : Seq) : Prop where
  done : st.done = true → st.err = .none
  cause : st.cause = .ok ↔ ¬(st.err = .ioError ∨ st.err = .registerWriteFailed)
  failZero : st.err ≠ .registerWriteFailed →
    st.failPhase = 0 ∧ st.failSubseq = 0 ∧ st.failStep = 0 ∧ st.failIndex = 0
  failPlace : st.err = .registerWriteFailed → st.failIndex = (seq[st.failStep.toNat]).index

/-- The clauses of `Inv` on the command in progress. -/
structure InPhase (s : State) : Prop where
  busy : s.status.busy = true ↔ s.phase ≠ .idle
  running : s.phase ≠ .idle → s.status.done = false ∧ s.status.err = .none
  outstanding : s.outstanding = requestOf s
  settleCnt : s.phase = .ecSettle → s.settleCnt.toNat ≤ s.settleUs.toNat + 1
  sending : s.phase = .hidReq ∨ s.phase = .hidWait → s.status.frameValid = true
  position : s.phase.isEc = true →
    s.status.seqValid = true ∧ (s.nsub = 1 ∨ s.nsub = 2) ∧ s.subseq.toNat < s.nsub.toNat

section
variable {s : State}

theorem Inv.stored (h : Inv s) : Stored s := { h with ec := ⟨h.ecRam, h.ecStale⟩ }

theorem Inv.answer (h : Inv s) : Answer s.status s.seq := { h with }

theorem inv_of_parts (h : Stored s) (ha : Answer s.status s.seq) (hp : InPhase s) : Inv s :=
  { h, ha, hp with ecRam := h.ec.wf, ecStale := h.ec.stale }

/-- An idle block is in order when it is not BUSY and waits for nothing. -/
theorem inPhase_of_idle (hp : s.phase = .idle) (hb : s.status.busy = false) (ho : s.outstanding = none) :
    InPhase s where
  busy := by simp [hp, hb]
  running h := absurd hp h
  outstanding := by simp [ho, requestOf, hp]
  settleCnt h := by simp [hp] at h
  sending h := by simp [hp] at h
  position h := by simp [hp, Phase.isEc] at h

/-- What holds while an EC command is in progress. -/
structure Sequencing (s : State) : Prop where
  busy : s.status.busy = true
  done : s.status.done = false
  err : s.status.err = .none
  seqValid : s.status.seqValid = true
  nsub : s.nsub = 1 ∨ s.nsub = 2
  subseq : s.subseq.toNat < s.nsub.toNat

theorem Inv.sequencing (h : Inv s) (hp : s.phase.isEc = true) : Sequencing s := by
  have hi : s.phase ≠ .idle := fun hi => by simp [hi, Phase.isEc] at hp
  obtain ⟨hd, hn⟩ := h.running hi
  obtain ⟨hv, hs, hx⟩ := h.position hp
  exact ⟨h.busy.2 hi, hd, hn, hv, hs, hx⟩

/-- An EC phase is in order when its request is outstanding and its settle counter in range. -/
theorem inPhase_of_ec (hp : s.phase.isEc = true) (h : Sequencing s) (ho : s.outstanding = requestOf s)
    (hc : s.phase = .ecSettle → s.settleCnt.toNat ≤ s.settleUs.toNat + 1) : InPhase s where
  busy := ⟨fun _ hi => by simp [hi, Phase.isEc] at hp, fun _ => h.busy⟩
  running _ := ⟨h.done, h.err⟩
  outstanding := ho
  settleCnt := hc
  sending hq := by rcases hq with hq | hq <;> simp [hq, Phase.isEc] at hp
  position _ := ⟨h.seqValid, h.nsub, h.subseq⟩

end

section
variable {st : Status} {seq : Seq} (h : Answer st seq) (hn : st.err = .none)
include h hn

/-- Without an error the answer does not speak of SEQ. -/
theorem Answer.withSeq (seq' : Seq) : Answer st seq' :=
  { h with failPlace := fun he => by simp [hn] at he }

/-- A command without an error may succeed. -/
theorem Answer.succeeded : Answer { st with done := true } seq :=
  { h with done := fun _ => hn }

/-- A command without an error may end in any error but RegisterWriteFailed, with a cause for IoError alone (R41, R42). -/
theorem Answer.raised {e : ErrCode} {c : Resp} (he : e ≠ .registerWriteFailed) (hc : c = .ok ↔ e ≠ .ioError) :
    Answer { st with err := e, cause := c, done := false, busy := false } seq where
  done := nofun
  cause := by simp [hc, he]
  failZero _ := h.failZero (by simp [hn])
  failPlace h' := absurd h' he
end

section
variable {s : State} (h : Inv s)
include h

theorem Inv.busy_eq_false (hp : s.phase = .idle) : s.status.busy = false := by
  simpa [hp] using h.busy

theorem Inv.outstanding_eq_none (hp : s.phase = .idle) : s.outstanding = none := by
  simpa [requestOf, hp] using h.outstanding

/-- The invariant does not speak of the schedule and of the count of draws. -/
theorem Inv.withSchedule (l : List Move) (d : Nat) : Inv { s with sched := l, draws := d } := { h with }

/-- Nor does it speak of the history, the inputs and the abandoned requests; of the EC it keeps the record only. -/
theorem Inv.withEnvironment {e : Ec} (he : EcRecord e) (l : List Event) (a : List Request) (hid ec : Bool) :
    Inv { s with ec := e, history := l, abandoned := a, hidOpen := hid, ecOpen := ec } :=
  { h with ecRam := he.wf, ecStale := he.stale }

/-- The acceptance effects of R73 clear the last answer. -/
theorem Inv.accept (hp : s.phase = .idle) (w : CmdWord) : Inv (accept w s) :=
  inv_of_parts { h.stored with }
    { done := fun _ => rfl, cause := by simp, failZero := fun _ => ⟨rfl, rfl, rfl, rfl⟩
      failPlace := fun he => by simp at he }
    (inPhase_of_idle hp (h.busy_eq_false hp) (h.outstanding_eq_none hp))
end

/-- An EC command runs one sequence or two (R204 to R208). -/
theorem startArgs_nsub {i : Instr} {s : State} {n : BitVec 2} {t v pt pv : Byte}
    (ha : startArgs i s = some (n, t, v, pt, pv)) : n = 1 ∨ n = 2 := by
  obtain ⟨-, hn⟩ | ⟨-, hn, -⟩ | ⟨-, hn, -⟩ | ⟨-, hn, -⟩ | ⟨-, hn, -⟩ := startArgs_cases ha <;> simp [hn]

/-- A command without an error ends in any error but RegisterWriteFailed. -/
theorem inv_raise {s : State} (e : ErrCode) (c : Resp) (h : Stored s) (ha : Answer s.status s.seq)
    (hn : s.status.err = .none) (ho : s.outstanding = none) (he : e ≠ .registerWriteFailed)
    (hc : c = .ok ↔ e ≠ .ioError) : Inv (raise e c s) :=
  inv_of_parts { h with } (ha.raised hn he hc) (inPhase_of_idle rfl rfl ho)

section
variable {s : State} (h : Inv s) (hp : s.phase = .idle) (hn : s.status.err = .none)
include h hp hn

theorem Inv.raiseInvalid : Inv (raiseInvalid s) :=
  inv_raise .invalidArgument .ok h.stored h.answer hn (h.outstanding_eq_none hp) (by decide) (by decide)

/-- A refused build clears FRAME_VALID besides (R161). -/
theorem Inv.failBuild : Inv (failBuild s) :=
  inv_raise (s := { s with status := { s.status with frameValid := false } }) .invalidArgument .ok
    { h.stored with frameValid := nofun } { h.answer with } hn (h.outstanding_eq_none hp) (by decide) (by decide)

/-- A word that is no command raises InvalidArgument (R111, R133). -/
theorem Inv.rejectWord {w : CmdWord} {r : DecodeReject} (hd : decode w = .error r) : Inv (rejectWord r s) := by
  obtain he | ⟨-, he⟩ := rejectWord_cases hd s <;> rw [he]
  · exact h.raiseInvalid hp hn
  · exact h.failBuild hp hn

/-- Every meaning of a command keeps the invariant of an accepted state. -/
theorem Inv.accepted (hd : s.status.done = false) {i : Instr} {t : State} (ha : Accepted i s t) : Inv t := by
  have hb := h.busy_eq_false hp
  have ho := h.outstanding_eq_none hp
  have hs := h.stored
  have hr := h.answer
  cases ha with
  | built f hf _ =>
    exact inv_of_parts { hs with frameSealed := .inr hf, frameValid := fun _ => hf } { hr.succeeded hn with }
      (inPhase_of_idle hp hb ho)
  | notBuilt _ => exact h.failBuild hp hn
  | sending _ hv _ =>
    exact inv_of_parts { hs with } { hr with }
      { busy := by simp, running := fun _ => ⟨hd, hn⟩, outstanding := ho, settleCnt := nofun
        sending := fun _ => hv, position := nofun }
  | invalid => exact h.raiseInvalid hp hn
  | notFound pt pv =>
    exact inv_raise (s := { s with pendT := pt, pendV := pv }) .deviceNotFound .ok { hs with } hr hn ho
      (by decide) (by decide)
  | settle us _ hu =>
    exact inv_of_parts { hs with settleFloor := hu } (hr.succeeded hn) (inPhase_of_idle hp hb ho)
  | filled t v _ =>
    exact inv_of_parts { hs with seqValid := fun _ => ⟨t, v, rfl⟩ } { (hr.succeeded hn).withSeq hn _ with }
      (inPhase_of_idle hp hb ho)
  | started n t v pt pv ha =>
    have hn2 : n = 1 ∨ n = 2 := startArgs_nsub ha
    have hn0 : 0 < n.toNat := by rcases hn2 with rfl | rfl <;> decide
    exact inv_of_parts { hs with seqValid := fun _ => ⟨t, v, rfl⟩ } { hr.withSeq hn _ with }
      (inPhase_of_ec rfl ⟨rfl, hd, hn, rfl, hn2, hn0⟩ ho nofun)

end

/-- SETTLE_US + 1 does not overflow the 17-bit settle counter (R51, R213). -/
theorem toNat_settleLoad (us : Micros) : (us.setWidth 17 + 1).toNat = us.toNat + 1 := by
  bv_omega

section
variable {s : State} (h : Inv s)
include h

theorem Inv.hidIssue (hp : s.phase = .hidReq) : Inv (hidIssue s) :=
  have hb : s.phase ≠ .idle := by simp [hp]
  inv_of_parts { h.stored with } h.answer
    { busy := ⟨nofun, fun _ => h.busy.2 hb⟩, running := fun _ => h.running hb, outstanding := rfl
      settleCnt := nofun, sending := fun _ => h.sending (.inl hp), position := nofun }

theorem Inv.hidRespond (hp : s.phase = .hidWait) (f : Frame) (r : Resp) : Inv (hidRespond f r s) := by
  obtain ⟨-, hn⟩ := h.running (by simp [hp])
  unfold Machine.hidRespond
  split
  case isTrue =>
    exact inv_of_parts { h.stored with } { h.answer.succeeded hn with } (inPhase_of_idle rfl rfl rfl)
  case isFalse hr =>
    exact inv_raise .ioError r { h.stored with } h.answer hn rfl (by decide) (by simp [hr])

theorem Inv.indexIssue (hp : s.phase = .ecIdx) : Inv (indexIssue s) :=
  inv_of_parts { h.stored with ec := h.stored.ec.issueIndex .block } h.answer
    (inPhase_of_ec rfl { h.sequencing (hp ▸ rfl) with } rfl nofun)

theorem Inv.dataIssue (hp : s.phase = .ecDat) : Inv (dataIssue s) :=
  inv_of_parts { h.stored with ec := h.stored.ec.issueData .block } h.answer
    (inPhase_of_ec rfl { h.sequencing (hp ▸ rfl) with } rfl nofun)

/-- A failed port write ends the command with the place of the failure (R218). -/
theorem Inv.fail (p : BitVec 1) {r : Resp} (hr : r ≠ .ok) (e : Event) :
    Inv (fail p r (record e { s with outstanding := none })) :=
  inv_of_parts { h.stored with ec := ecRecord_forget s.ec }
    { done := nofun, cause := by simp [hr], failZero := fun hz => by simp at hz, failPlace := fun _ => rfl }
    (inPhase_of_idle rfl rfl rfl)

theorem Inv.indexRespond (hp : s.phase = .ecIdxWait) (b : Byte) (r : Resp) : Inv (indexRespond b r s) := by
  unfold Machine.indexRespond
  split
  case isTrue =>
    exact inv_of_parts { h.stored with ec := h.stored.ec.indexOk .block b } h.answer
      (inPhase_of_ec rfl { h.sequencing (hp ▸ rfl) with } rfl nofun)
  case isFalse hr => exact h.fail 0 hr _

theorem Inv.dataRespond (hp : s.phase = .ecDatWait) (b : Byte) (r : Resp) : Inv (dataRespond b r s) := by
  unfold Machine.dataRespond
  split
  case isTrue =>
    exact inv_of_parts { h.stored with ec := (h.stored.ec.dataOk .block b).settleMargin _ } h.answer
      (inPhase_of_ec rfl { h.sequencing (hp ▸ rfl) with } rfl
        fun _ => (toNat_settleLoad s.settleUs).le)
  case isFalse hr => exact h.fail 1 hr _

/-- In EC_SETTLE nothing is outstanding. -/
theorem Inv.outstanding_of_settle (hp : s.phase = .ecSettle) : s.outstanding = none := by
  simpa [requestOf, hp] using h.outstanding

theorem Inv.nextPair (hp : s.phase = .ecSettle) : Inv { s with stepIx := s.stepIx + 1, phase := .ecIdx } :=
  inv_of_parts { h.stored with } h.answer
    (inPhase_of_ec rfl { h.sequencing (hp ▸ rfl) with } (h.outstanding_of_settle hp) nofun)

theorem Inv.nextSubseq (hp : s.phase = .ecSettle) (hx : s.subseq.toNat + 1 < s.nsub.toNat) : Inv (nextSubseq s) :=
  have hq := h.sequencing (hp ▸ rfl)
  have h1 : (1 : BitVec 1).toNat < s.nsub.toNat := Nat.lt_of_le_of_lt (Nat.le_add_left 1 _) hx
  inv_of_parts { h.stored with seqValid := fun _ => ⟨s.pendT, s.pendV, rfl⟩ } { h.answer.withSeq hq.err _ with }
    (inPhase_of_ec rfl { hq with seqValid := rfl, subseq := h1 } (h.outstanding_of_settle hp) nofun)

theorem Inv.complete (hp : s.phase = .ecSettle) : Inv (complete s) :=
  have hq := h.sequencing (hp ▸ rfl)
  inv_of_parts { h.stored with } { h.answer.succeeded hq.err with }
    (inPhase_of_idle rfl rfl (h.outstanding_of_settle hp))

/-- The settle counter only falls (R214). -/
theorem Inv.settleTick : Inv (settleTick s) := by
  unfold Machine.settleTick
  split
  case isTrue hc =>
    obtain ⟨hp, h0⟩ := hc
    have hle : s.settleCnt.toNat ≤ s.settleUs.toNat + 1 := h.settleCnt hp
    have hsub : (s.settleCnt - 1).toNat ≤ s.settleCnt.toNat := by bv_omega
    exact { h with settleCnt := fun _ => hsub.trans hle }
  case isFalse => exact h

theorem Inv.tickStep : Inv (tickStep s) :=
  (h.withEnvironment h.stored.ec.tick (.tick :: s.history) s.abandoned s.hidOpen s.ecOpen).settleTick

theorem Inv.foreignStep (p : Port) (b : Byte) (r : Resp) : Inv (foreignStep p b r s) := by
  refine h.withEnvironment ?_ (.portWrite .foreign p b r :: s.history) s.abandoned s.hidOpen s.ecOpen
  split
  · exact ecRecord_forget s.ec
  · exact h.stored.ec.foreignWrite p b r

end

/-- The state right after power-up (R55). -/
theorem inv_reset : Inv State.reset :=
  inv_of_parts
    { settleFloor := by decide, frameSealed := .inl rfl, frameValid := nofun, seqValid := nofun, ec := ⟨rfl, nofun⟩ }
    { done := nofun, cause := by decide, failZero := fun _ => ⟨rfl, rfl, rfl, rfl⟩, failPlace := nofun }
    (inPhase_of_idle rfl rfl rfl)

/-- The reset input gives the block its reset values, whatever the state before (R300). -/
theorem inv_resetStep (s : State) : Inv (resetStep s) :=
  (inv_reset.withEnvironment (ecRecord_forget s.ec) (.reset :: s.history) (s.abandoned ++ s.outstanding.toList)
    s.hidOpen s.ecOpen).withSchedule s.sched s.draws

/-- Every move but the host's issue keeps the invariant. -/
theorem Inv.moved {s t : State} (h : Inv s) {m : Move} (hm : Moved m s t) : Inv t := by
  cases hm with
  | stays => exact h
  | hidIssued _ hp => exact h.hidIssue hp
  | hidAnswered f r _ hp _ => exact h.hidRespond hp f r
  | indexIssued _ hp => exact h.indexIssue hp
  | indexAnswered b r _ hp _ => exact h.indexRespond hp b r
  | dataIssued _ hp => exact h.dataIssue hp
  | dataAnswered b r _ hp _ => exact h.dataRespond hp b r
  | nextPair _ hp _ _ => exact h.nextPair hp
  | nextSequence _ hp _ _ hx => exact h.nextSubseq hp hx
  | completed _ hp _ _ _ => exact h.complete hp
  | ticked _ => exact h.tickStep
  | foreignWrote p b r _ => exact h.foreignStep p b r
  | lateHid k r f _ _ => exact h.withEnvironment h.stored.ec _ _ _ _
  | latePort k r p b _ _ => exact h.withEnvironment (ecRecord_forget s.ec) _ _ _ _
  | hidOpened v _ => exact h.withEnvironment h.stored.ec _ _ _ _
  | ecOpened v _ => exact h.withEnvironment h.stored.ec _ _ _ _
  | wasReset _ => exact inv_resetStep s

/-- Every move keeps the invariant. -/
theorem Inv.acted {s t : State} (h : Inv s) {m : Move} (ha : Acted m s t) : Inv t := by
  cases ha with
  | accepted w i t _ hp _ ha => exact (h.accept hp w).accepted hp rfl rfl ha
  | rejected w r _ hp hd => exact (h.accept hp w).rejectWord hp rfl hd
  | moved t hm => exact h.moved hm

end Sys2Proof.Safety
end

section
/-! The obligations of spec/10_state.md. -/

namespace Sys2Proof.Settled

open Sys2Proof.Machine Sys2Proof.Safety

/-- Settles O48: the move of the step keeps `Inv`, operation by operation. -/
theorem everyStepKeepsTheInvariant : Obligations.EveryStepKeepsTheInvariant := by
  intro s s' h hstep
  obtain ⟨l, d, ha⟩ := exists_acted_of_step hstep
  exact (h.withSchedule l d).acted ha

/-- Settles O8: acceptance writes LAST_OP, and no meaning writes it after. -/
theorem everyAcceptanceSetsLastOp : Obligations.EveryAcceptanceSetsLastOp := by
  intro s w rest hs hp
  have hstep : step s = issueStep w { s with sched := rest } := (step_of_sched hs).trans (if_pos hp)
  rw [hstep]
  exact issueStep_lastOp_history w { s with sched := rest }

/-- Settles O36: each field is read at its own place, and the others do not reach it. -/
theorem statusWordLayout : Obligations.StatusWordLayout := by
  intro st
  have busy_place : (flagBit st.busy).setWidth 32 = (flagBit st.busy).setWidth 32 <<< 0 :=
    (BitVec.shiftLeft_zero _).symm
  unfold statusWord
  rw [busy_place]
  simp (disch := omega) only [BitVec.extractLsb'_or, extractLsb'_field_same, extractLsb'_field_other,
    BitVec.or_zero, BitVec.zero_or, flagBit_eq_ofBool, true_and]
  exact ⟨rfl, rfl, rfl, rfl⟩

/-- Settles O52: the move of the step either keeps the stores or is one of their writers. -/
theorem settleUsAndSeqValidHaveTheirWriters : Obligations.SettleUsAndSeqValidHaveTheirWriters := by
  intro s s' hstep
  obtain ⟨l, d, ha⟩ := exists_acted_of_step hstep
  exact ⟨fun hne => (acted_settleUs ha).resolve_left hne,
    fun hv hv' => (acted_seqValid ha hv).resolve_right (by simp [hv'])⟩

/-- Settles O53: FRAME and FRAME_VALID stay, or the move is a reset or the acceptance of a framer opcode. -/
theorem onlyBuildsWriteTheFrame : Obligations.OnlyBuildsWriteTheFrame := by
  intro s s' hstep
  obtain ⟨l, d, ha⟩ := exists_acted_of_step hstep
  obtain ⟨hf, hv⟩ | hr | ⟨hw, hf⟩ := acted_frame ha
  · exact ⟨fun hne => absurd hne (by simp [hf, hv]), fun hne => absurd hf hne⟩
  · exact ⟨fun _ => .inl hr, fun _ hnr => absurd hr hnr⟩
  · exact ⟨fun _ => .inr hw, fun hne _ => hf.resolve_left hne⟩

/-- Settles O60: the move to come and what it does commute with setting the inputs. -/
theorem inputsAreSampledAtAcceptanceOnly : Obligations.InputsAreSampledAtAcceptanceOnly := by
  refine ⟨fun s v rest => ⟨step_of_sched, step_of_sched⟩, fun s s' hid ec hp hm hstep => ?_⟩
  rw [step_of_busy hp] at hstep
  cases hstep
  change step (withInputs hid ec s) = _
  rw [step_of_busy (s := withInputs hid ec s) hp, nextMove_withInputs, envStep_withInputs hid ec _ hm]
  rfl

/-- Settles O38: nothing is being delivered at power-up and no byte of EC_RAM is listed. -/
theorem resetValues : Obligations.ResetValues := by
  refine ⟨by decide, rfl, rfl, rfl, rfl, rfl, rfl, rfl, rfl, rfl, rfl, rfl, fun a => ?_, rfl, rfl, rfl⟩
  have hs : State.reset.ec.settled = true := settled_of_idle rfl
  rw [known_of_settled hs]
  rfl

/-- Settles O47: after reset the block is idle, the history is empty and nothing is being delivered. -/
theorem resetMeetsTheInvariants : Obligations.ResetMeetsTheInvariants :=
  ⟨inv_reset, nofun, fun _ _ _ => rfl, nofun, ⟨[], rfl⟩, fun _ hne => absurd rfl hne⟩

end Sys2Proof.Settled
end

section
/-! SUPPORT. The host's view of the register space (spec/20_memory.md R71): how an address picks its register, and a
SEQ word as a number. -/

namespace Sys2Proof.Machine

/-- A SEQ word is the value above the index (R71, R128). -/
theorem pairWord_toNat (p : Pair) : (pairWord p).toNat = p.value.toNat * 256 + p.index.toNat := by
  have hi : p.index.toNat < 2 ^ 8 := p.index.isLt
  have hv : p.value.toNat * 2 ^ 8 < 2 ^ 32 := by bv_omega
  have hor : p.value.toNat <<< 8 + p.index.toNat = p.value.toNat <<< 8 ||| p.index.toNat :=
    Nat.shiftLeft_add_eq_or_of_lt hi _
  rw [Nat.shiftLeft_eq] at hor
  simp only [pairWord, BitVec.toNat_or, BitVec.toNat_shiftLeft, BitVec.toNat_setWidth_of_le (by decide : 8 ≤ 32),
    Nat.shiftLeft_eq, Nat.mod_eq_of_lt hv, ← hor]

section
variable (s : State) {a : HostAddr}

/-- Above STATUS and SETTLE_US lie FRAME and SEQ, and nothing else (R71). -/
theorem hostRead_of_two_le (h : 2 ≤ a.toNat) :
    hostRead s a =
      if 0x10 ≤ a.toNat ∧ a.toNat ≤ 0x50 then (s.frame.getD (a.toNat - 0x10) 0).setWidth 32
      else if 0x60 ≤ a.toNat ∧ a.toNat ≤ 0x67 then pairWord (s.seq.getD (a.toNat - 0x60) ⟨0, 0⟩)
      else 0 := by
  have h0 : a ≠ 0x00 := by rintro rfl; simp at h
  have h1 : a ≠ 0x01 := by rintro rfl; simp at h
  unfold hostRead
  rw [if_neg h0, if_neg h1]

/-- The addresses 0x10 to 0x50 read FRAME (R71). -/
theorem hostRead_frame {k : Nat} (h : k < 65) (ha : a.toNat = 0x10 + k) :
    hostRead s a = (s.frame[k]).setWidth 32 := by
  rw [hostRead_of_two_le s (by omega), if_pos (by omega), ha, Nat.add_sub_cancel_left]
  simp [Vector.getD, h]

/-- The addresses 0x60 to 0x67 read SEQ (R71). -/
theorem hostRead_seq {k : Nat} (h : k < 8) (ha : a.toNat = 0x60 + k) : hostRead s a = pairWord s.seq[k] := by
  rw [hostRead_of_two_le s (by omega), if_neg (by omega), if_pos (by omega), ha, Nat.add_sub_cancel_left]
  simp [Vector.getD, h]

/-- The other addresses read 0 (R71). -/
theorem hostRead_reserved
    (ha : 2 ≤ a.toNat ∧ a.toNat ≤ 0x0F ∨ 0x51 ≤ a.toNat ∧ a.toNat ≤ 0x5F ∨ 0x68 ≤ a.toNat) : hostRead s a = 0 := by
  rw [hostRead_of_two_le s (by omega), if_neg (by omega), if_neg (by omega)]
end

end Sys2Proof.Machine
end

section
/-! SUPPORT. What a tick does to the EC, who writes EC_RAM, and that the EC's account of the delivery in progress is
on record (spec/20_memory.md R78, R79, R81, R93). -/

namespace Sys2Proof.Machine

open Sys2Proof.Safety

/-- Nothing is known of an EC whose state was forgotten (R81). -/
theorem ecUnknown_forget (e : Ec) : EcUnknown e.forget := ⟨forget_known e, rfl, rfl, rfl⟩

/-! Ticks. -/

theorem half_of_triggered {e : Ec} (h : e.triggered = true) : e.half = .none := by
  simp only [Ec.triggered, Bool.and_eq_true, decide_eq_true_eq] at h
  exact h.1

/-- The EC with `n` more ticks counted. -/
def Ec.count (n : Nat) (e : Ec) : Ec := { e with ticks := e.ticks + n }

section
variable (n : Nat) (e : Ec)
@[simp] theorem count_pairs : (e.count n).pairs = e.pairs := rfl
@[simp] theorem count_half : (e.count n).half = e.half := rfl
@[simp] theorem count_triggered : (e.count n).triggered = e.triggered := rfl

@[simp] theorem iterate_tick_latencyUs : (Ec.tick^[n] e).latencyUs = e.latencyUs := by
  induction n with
  | zero => rfl
  | succ n ih => rw [Function.iterate_succ_apply', tick_latencyUs, ih]

/-- What a commit writes does not depend on the ticks counted. -/
theorem commit_count_ram (t v : Byte) : ((e.count n).commit t v).ram = (e.commit t v).ram := by
  cases hc : latchCycled (e.pairs.drop 8) <;> simp [Ec.commit, hc, Ec.count]

/-- A tick counts, and ends a triggered delivery when its time has passed (R79). -/
theorem tick_eq :
    e.tick = if e.triggered = true ∧ e.latencyUs ≤ e.ticks then (e.count 1).deliveryEnds else e.count 1 := by
  have hc : (e.triggered && decide (e.latencyUs + 1 ≤ e.ticks + 1)) = true ↔
      e.triggered = true ∧ e.latencyUs ≤ e.ticks := by simp
  exact if_congr hc rfl rfl
end

/-! EC_RAM. -/

theorem settleTick_ec (s : State) : (settleTick s).ec = s.ec := by
  unfold settleTick
  split <;> rfl

@[simp] theorem tickStep_ec (s : State) : (tickStep s).ec = s.ec.tick := settleTick_ec _

theorem settleMargin_ram (s : State) (e : Ec) : (settleMargin s e).ram = e.ram ∨ (settleMargin s e).ram = [] := by
  unfold settleMargin
  split
  · exact .inr rfl
  · exact .inl rfl

/-- No meaning of a command touches the EC. -/
theorem accepted_ec {i : Instr} {s t : State} (h : Accepted i s t) : t.ec = s.ec := by
  cases h <;> rfl

/-- A word that is no command does not touch the EC. -/
theorem rejectWord_ec {w : CmdWord} {r : DecodeReject} (h : decode w = .error r) (s : State) :
    (rejectWord r s).ec = s.ec := by
  obtain he | ⟨-, he⟩ := rejectWord_cases h s <;> rw [he] <;> rfl

/-- Every move but a tick keeps EC_RAM or makes all of it unknown. -/
theorem moved_ram {m : Move} {s t : State} (h : Moved m s t) : m = .tick ∨ t.ec.ram = s.ec.ram ∨ t.ec.ram = [] := by
  cases h with
  | ticked hm => exact .inl hm
  | hidAnswered f r _ _ _ => unfold hidRespond; split <;> exact .inr (.inl rfl)
  | indexIssued _ _ => exact .inr (issueIndex_ram s.ec .block)
  | indexAnswered b r _ _ _ =>
    unfold indexRespond
    split
    · exact .inr (indexOk_ram s.ec .block b)
    · exact .inr (.inr rfl)
  | dataIssued _ _ => exact .inr (issueData_ram s.ec .block)
  | dataAnswered b r _ _ _ =>
    unfold dataRespond
    split
    · obtain hk | hl := settleMargin_ram (record (.portWrite .block .data b r) { s with outstanding := none })
        (s.ec.dataOk .block b)
      · exact .inr (hk ▸ dataOk_ram s.ec .block b)
      · exact .inr (.inr hl)
    · exact .inr (.inr rfl)
  | foreignWrote p b r _ =>
    refine .inr ?_
    simp only [foreignStep, record_ec]
    split
    · exact .inr rfl
    · exact foreignWrite_ram s.ec b p r
  | latePort => exact .inr (.inr rfl)
  | wasReset _ => exact .inr (.inr rfl)
  | _ => exact .inr (.inl rfl)

/-- Every move keeps EC_RAM or makes all of it unknown, or is a tick. -/
theorem acted_ram {m : Move} {s t : State} (h : Acted m s t) :
    (m = .tick ∧ t.ec = s.ec.tick) ∨ t.ec.ram = s.ec.ram ∨ t.ec.ram = [] := by
  cases h with
  | accepted w i t _ _ _ ha => exact .inr (.inl (by rw [accepted_ec ha, accept_ec]))
  | rejected w r _ _ hd => exact .inr (.inl (by rw [rejectWord_ec hd, accept_ec]))
  | moved t hm =>
    obtain rfl | hk := moved_ram hm
    · cases hm with
      | stays => exact .inr (.inl rfl)
      | ticked => exact .inl ⟨rfl, tickStep_ec s⟩
      | _ => contradiction
    · exact .inr hk

/-- A byte that is known after a write to an address, and was not known so before, is the one written there. -/
theorem Memory.eq_of_read_write {m m' : Memory} {t b a v : Byte} (hm : m' = m ∨ m' = [])
    (h : Memory.read (Memory.write m' t b) a = some v) (hn : Memory.read m a ≠ some v) : a = t ∧ v = b := by
  by_cases ha : a = t
  · subst ha
    rw [Memory.read_write_same] at h
    exact ⟨rfl, (Option.some.inj h).symm⟩
  · rw [Memory.read_write_other _ _ _ _ ha] at h
    rcases hm with rfl | rfl
    · exact absurd h hn
    · cases h

/-- EC_RAM comes to hold a byte by a tick only where an exact delivery of that byte ends (R79). -/
theorem tick_read {e : Ec} {a v : Byte} (h : Memory.read e.tick.ram a = some v) (hn : Memory.read e.ram a ≠ some v) :
    exactDelivery e.pairs = some (a, v) ∧ e.half = .none ∧ e.latencyUs ≤ e.ticks := by
  obtain ⟨t, b, hx, hh, hl, hw⟩ | hk | hk := tick_ram e
  · have hab : a = t ∧ v = b := by
      rcases hw with hw | hw <;> rw [hw] at h
      · exact Memory.eq_of_read_write (.inl rfl) h hn
      · exact Memory.eq_of_read_write (.inr rfl) h hn
    obtain ⟨rfl, rfl⟩ := hab
    exact ⟨hx, hh, hl⟩
  · exact absurd (hk ▸ h) hn
  · rw [hk] at h
    cases h

end Sys2Proof.Machine

namespace Sys2Proof.Safety

open Sys2Proof.Machine

/-! The delivery in progress. -/

/-- `DeliveryOnRecord` of an EC and a history: all that it reads of the state. -/
def OnRecord (e : Ec) (h : List Event) : Prop :=
  deliveryWrites e <+: portWrites h ∧ (e.half = .none → e.pairs ≠ [] → e.ticks = ticksSinceWrite h)

theorem deliveryOnRecord_iff (s : State) : DeliveryOnRecord s ↔ OnRecord s.ec s.history := Iff.rfl

/-- Where no register write is made or begun, or only an index-port write is issued, the record asks for nothing. -/
theorem onRecord_of_no_writes {e : Ec} (hw : deliveryWrites e = []) (hp : e.half = .none → e.pairs = [])
    (h : List Event) : OnRecord e h :=
  ⟨hw ▸ List.nil_prefix, fun hh hne => absurd (hp hh) hne⟩

theorem onRecord_forget (e : Ec) (h : List Event) : OnRecord e.forget h :=
  onRecord_of_no_writes rfl (fun _ => rfl) h

section
variable {e : Ec} {h : List Event} (hr : OnRecord e h)
include hr

/-- Issuing an index-port write goes on with the delivery or begins one without a write yet. -/
theorem OnRecord.issueIndex (who : Writer) : OnRecord (e.issueIndex who) h := by
  obtain ⟨ho, hh, -, he⟩ | ⟨-, -, -, he⟩ | he := issueIndex_cases e who <;> rw [he]
  · refine ⟨?_, nofun⟩
    simpa [deliveryWrites, hh] using hr.1
  · exact onRecord_of_no_writes rfl (by nofun) h
  · exact onRecord_of_no_writes rfl (by nofun) h

/-- The index-port write answered OK is the newest port write of the history. -/
theorem OnRecord.indexOk (who : Writer) (b : Byte) :
    OnRecord (e.indexOk who b) (.portWrite who .index b .ok :: h) := by
  unfold Ec.indexOk
  split
  case isTrue hc =>
    obtain ⟨hh, rfl⟩ := hc
    have hw : deliveryWrites e <+: portWrites h := hr.1
    refine ⟨?_, nofun⟩
    simpa [deliveryWrites, portWrites, hh] using hw
  case isFalse => exact onRecord_forget e _

/-- Issuing a data-port write makes no write yet. -/
theorem OnRecord.issueData (who : Writer) : OnRecord (e.issueData who) h := by
  unfold Ec.issueData
  split
  case h_1 i hh =>
    split
    · refine ⟨?_, nofun⟩
      simpa [deliveryWrites, hh] using hr.1
    · exact onRecord_forget e h
  case h_2 => exact onRecord_forget e h

/-- The data-port write answered OK is the newest port write of the history, and the gap is counted from it. -/
theorem OnRecord.dataOk (who : Writer) (b : Byte) :
    OnRecord (e.dataOk who b) (.portWrite who .data b .ok :: h) := by
  unfold Ec.dataOk
  split
  case h_1 i hh =>
    split
    case isTrue ho =>
      subst ho
      have hw : deliveryWrites e <+: portWrites h := hr.1
      refine ⟨?_, fun _ _ => rfl⟩
      simpa [deliveryWrites, portWrites, Ec.pairDone, hh] using hw
    case isFalse => exact onRecord_forget e _
  case h_2 => exact onRecord_forget e _

theorem OnRecord.settleMargin (s : State) : OnRecord (settleMargin s e) h := by
  unfold Machine.settleMargin
  split
  · exact onRecord_forget e h
  · exact hr

/-- A commit ends the delivery. -/
theorem OnRecord.deliveryEnds (hh : e.half = .none) : OnRecord e.deliveryEnds h := by
  unfold Ec.deliveryEnds
  split
  case h_1 t v _ =>
    exact onRecord_of_no_writes (by simp [deliveryWrites, commit_half e t v hh]) (fun _ => commit_pairs e t v) h
  case h_2 =>
    split
    · exact onRecord_forget e h
    · exact hr

/-- A tick is counted in the gap and in the history alike. -/
theorem OnRecord.tick : OnRecord e.tick (.tick :: h) := by
  have hc : OnRecord (e.count 1) (.tick :: h) := ⟨hr.1, fun hh hne => congrArg (· + 1) (hr.2 hh hne)⟩
  rw [tick_eq]
  split
  case isTrue ht => exact hc.deliveryEnds (half_of_triggered ht.1)
  case isFalse => exact hc

/-- A FOREIGN port write joins its delivery and the history in one step; one that fails ends every delivery. -/
theorem OnRecord.foreignWrite (p : Port) (b : Byte) (r : Resp) :
    OnRecord (e.foreignWrite p b r) (.portWrite .foreign p b r :: h) := by
  unfold Ec.foreignWrite
  split
  case isTrue hok =>
    subst hok
    cases p with
    | index => exact (hr.issueIndex .foreign).indexOk .foreign b
    | data => exact (hr.issueData .foreign).dataOk .foreign b
  case isFalse => exact onRecord_forget e _
end

/-- Every move but the host's issue keeps the record. -/
theorem deliveryOnRecord_moved {m : Move} {s t : State} (hr : DeliveryOnRecord s) (h : Moved m s t) :
    DeliveryOnRecord t := by
  rw [deliveryOnRecord_iff] at hr ⊢
  cases h with
  | hidAnswered f r _ _ _ => unfold hidRespond; split <;> exact hr
  | indexIssued _ _ => exact hr.issueIndex .block
  | indexAnswered b r _ _ _ =>
    unfold indexRespond
    split
    case isTrue hok => subst hok; exact hr.indexOk .block b
    case isFalse => exact onRecord_forget s.ec _
  | dataIssued _ _ => exact hr.issueData .block
  | dataAnswered b r _ _ _ =>
    unfold dataRespond
    split
    case isTrue hok => subst hok; exact (hr.dataOk .block b).settleMargin _
    case isFalse => exact onRecord_forget s.ec _
  | ticked _ =>
    unfold tickStep settleTick
    split <;> exact hr.tick
  | foreignWrote p b r _ =>
    simp only [foreignStep, record_ec, record_history]
    split
    · exact onRecord_forget s.ec _
    · exact hr.foreignWrite p b r
  | latePort => exact onRecord_forget s.ec _
  | wasReset _ => exact onRecord_forget s.ec _
  | _ => exact hr

/-- Every move keeps the record. -/
theorem deliveryOnRecord_acted {m : Move} {s t : State} (hr : DeliveryOnRecord s) (h : Acted m s t) :
    DeliveryOnRecord t := by
  cases h with
  | accepted w i t _ _ _ ha =>
    rw [deliveryOnRecord_iff, accepted_ec ha, (accepted_lastOp_history ha).2]
    exact hr
  | rejected w r _ _ hd =>
    obtain he | ⟨-, he⟩ := rejectWord_cases hd (accept w s) <;> rw [he] <;> exact hr
  | moved t hm => exact deliveryOnRecord_moved hr hm

end Sys2Proof.Safety
end

section
/-! SUPPORT. A delivery by FOREIGN outside the EC phases (spec/20_memory.md R77 to R80): a schedule of its port writes
and ticks as one operation of the EC a register write, and what such a delivery does to EC_RAM. -/

namespace Sys2Proof.Machine

open Sys2Proof.Safety

/-! The cycle of the latch. -/

/-- A cycle of the latch among some register writes is one among all of them. -/
theorem latchCycled_of_sublist {ps qs : List Pair} (hs : ps.Sublist qs) (h : latchCycled ps = true) :
    latchCycled qs = true := by
  induction hs with
  | slnil => exact h
  | cons p _ ih => simp [latchCycled, ih h]
  | cons_cons p hs ih =>
    simp only [latchCycled, Bool.or_eq_true, Bool.and_eq_true, List.contains_iff_mem] at h ⊢
    exact h.imp (And.imp_right fun hm => hs.subset hm) ih

/-- Of uncycled register writes any are uncycled. -/
theorem latchUncycled_of_sublist {ps qs : List Pair} (hs : ps.Sublist qs) (h : latchCycled qs = false) :
    latchCycled ps = false := by
  cases hc : latchCycled ps with
  | false => rfl
  | true => simp [latchCycled_of_sublist hs hc] at h

/-- An exact delivery cycles the latch: `buildSeq` does (R80). -/
theorem exactDelivery_of_uncycled {ps : List Pair} (h : latchCycled ps = false) : exactDelivery ps = none := by
  unfold exactDelivery
  split
  case h_1 value target _ =>
    split
    case isTrue he =>
      have hc := latchUncycled_of_sublist (List.take_sublist 8 _) h
      rw [he] at hc
      cases hc
    case isFalse => rfl
  case h_2 => rfl

/-! Several ticks. -/

section
variable {e : Ec}

/-- While no triggered delivery comes to its end a tick only counts. -/
theorem tick_of_waiting (h : e.triggered = false ∨ e.ticks + 1 ≤ e.latencyUs) : e.tick = e.count 1 := by
  rw [tick_eq, if_neg]
  rintro ⟨ht, hl⟩
  obtain h | h := h
  · simp [ht] at h
  · omega

/-- The same of several ticks. -/
theorem iterate_tick_of_waiting {n : Nat} (h : e.triggered = false ∨ e.ticks + n ≤ e.latencyUs) :
    Ec.tick^[n] e = e.count n := by
  induction n with
  | zero => rfl
  | succ n ih =>
    have hn : (e.count n).triggered = false ∨ (e.count n).ticks + 1 ≤ (e.count n).latencyUs := h
    rw [Function.iterate_succ_apply', ih (h.imp_right (by omega)), tick_of_waiting hn]
    rfl

/-- Where nothing is being delivered ticks leave EC_RAM known as it is. -/
theorem iterate_tick_known_of_idle (h : e.inProgress = false) (n : Nat) (a : Byte) :
    (Ec.tick^[n] e).known a = Memory.read e.ram a := by
  have hw : e.triggered = false := by simp [Ec.triggered, ((inProgress_eq_false e).1 h).1]
  have hi : (e.count n).inProgress = false := h
  rw [iterate_tick_of_waiting (.inl hw), known_of_settled (settled_of_idle hi)]
  rfl

/-- EC_LATENCY_US + 1 ticks after its trigger write, and later, an exact delivery is committed (R79). -/
theorem iterate_tick_known_of_exact {t v : Byte} {n : Nat} (h0 : e.ticks = 0) (ht : e.triggered = true)
    (hx : exactDelivery e.pairs = some (t, v)) (hn : e.latencyUs + 1 ≤ n) (a : Byte) :
    (Ec.tick^[n] e).known a = Memory.read (e.commit t v).ram a := by
  obtain ⟨k, rfl⟩ : ∃ k, n = k + 1 + e.latencyUs := ⟨n - (e.latencyUs + 1), by omega⟩
  have hwait : Ec.tick^[e.latencyUs] e = e.count e.latencyUs := iterate_tick_of_waiting (.inr (by omega))
  have hend : (e.count e.latencyUs).tick = ((e.count e.latencyUs).count 1).commit t v := by
    have hl : (e.count e.latencyUs).latencyUs ≤ (e.count e.latencyUs).ticks := Nat.le_add_left ..
    rw [tick_eq, if_pos ⟨ht, hl⟩]
    simp [Ec.deliveryEnds, hx]
  have hi : (((e.count e.latencyUs).count 1).commit t v).inProgress = false :=
    (inProgress_eq_false _).2 ⟨rfl, commit_half _ t v (half_of_triggered ht)⟩
  rw [Function.iterate_add_apply, hwait, Function.iterate_succ_apply, hend, iterate_tick_known_of_idle hi,
    commit_count_ram, commit_count_ram]
end

/-! One register write of FOREIGN. -/

@[simp] theorem issueIndex_owner (e : Ec) (who : Writer) : (e.issueIndex who).owner = who := rfl
@[simp] theorem issueIndex_half (e : Ec) (who : Writer) : (e.issueIndex who).half = .indexIssued := rfl

/-- An agent goes on with its own delivery after the gap, and begins one where nothing is being delivered. -/
theorem issueIndex_of_ready {e : Ec} {who : Writer} (hh : e.half = .none)
    (hp : e.pairs = [] ∨ e.owner = who ∧ e.latencyUs + 1 ≤ e.ticks) :
    e.issueIndex who = { e with owner := who, half := .indexIssued, draws := e.draws + 1 } := by
  obtain hp | ⟨ho, hg⟩ := hp
  · have hi : e.inProgress = false := (inProgress_eq_false e).2 ⟨hp, hh⟩
    simp only [Ec.issueIndex, hi, settled_of_idle hi, Bool.false_and, Bool.false_eq_true, if_false, if_true]
    split
    · rfl
    · rw [← hp]
  · simp [Ec.issueIndex, hh, ho, hg]

/-- From a settled EC an agent goes on, or begins, without a cycle of the latch and with EC_RAM as it was (R80). -/
theorem issueIndex_of_settled {e : Ec} (h : e.settled = true) (who : Writer) :
    (e.issueIndex who).ram = e.ram ∧ latchCycled (e.issueIndex who).pairs = false := by
  cases hi : e.inProgress with
  | false =>
    obtain ⟨hp, hh⟩ := (inProgress_eq_false e).1 hi
    rw [issueIndex_of_ready hh (.inl hp)]
    exact ⟨rfl, by rw [hp]; rfl⟩
  | true =>
    obtain ⟨hh, hg, hc, -⟩ := (settled_iff_of_inProgress hi).1 h
    by_cases ho : e.owner = who
    · rw [issueIndex_of_ready hh (.inr ⟨ho, hg⟩)]
      exact ⟨rfl, hc⟩
    · have he : e.issueIndex who = { e with pairs := [], owner := who, half := .indexIssued, draws := e.draws + 1 } := by
        simp [Ec.issueIndex, hh, hg, ho, h]
      rw [he]
      exact ⟨rfl, rfl⟩

/-- The EC after a register write by FOREIGN and `n` ticks. -/
def Ec.foreignPair (n : Nat) (e : Ec) (p : Pair) : Ec :=
  Ec.tick^[n] ((e.foreignWrite .index p.index .ok).foreignWrite .data p.value .ok)

/-- The two port writes complete the register write that the first of them begins (R77). -/
theorem foreignPair_eq (n : Nat) (e : Ec) (p : Pair) :
    e.foreignPair n p = Ec.tick^[n] ((e.issueIndex .foreign).pairDone p) := by
  simp [Ec.foreignPair, Ec.foreignWrite, Ec.indexOk, Ec.issueData, Ec.dataOk, Ec.pairDone]

@[simp] theorem foreignPair_latencyUs (n : Nat) (e : Ec) (p : Pair) : (e.foreignPair n p).latencyUs = e.latencyUs := by
  simp [Ec.foreignPair]

/-! The schedule of a delivery. -/

/-- The moves of a delivery by FOREIGN: its port writes and ticks. -/
def deliveryMove : Move → Bool
  | .foreignWrite _ _ _ => true
  | .tick => true
  | _ => false

/-- The EC after such a move outside the EC phases. -/
def Ec.afterMove (e : Ec) : Move → Ec
  | .foreignWrite p b r => e.foreignWrite p b r
  | .tick => e.tick
  | _ => e

theorem deliveryMove_of_mem_foreignMoves {ps : List Pair} {n : Nat} {m : Move} (h : m ∈ foreignMoves ps n) :
    deliveryMove m = true := by
  simp only [foreignMoves, List.mem_flatMap, List.mem_append, List.mem_cons, List.not_mem_nil, or_false] at h
  obtain ⟨p, -, (rfl | rfl) | h⟩ := h
  · rfl
  · rfl
  · rw [List.eq_of_mem_replicate h]
    rfl

/-- Outside the EC phases such a move changes the EC as `Ec.afterMove` says, and neither PHASE nor the schedule. -/
theorem act_deliveryMove {m : Move} (hm : deliveryMove m = true) {s : State} (hp : s.phase.isEc = false) :
    ∃ t, act m s = .next t ∧ t.ec = s.ec.afterMove m ∧ t.phase = s.phase ∧ t.sched = s.sched := by
  cases m with
  | foreignWrite p b r => exact ⟨_, rfl, if_neg (by simp [hp]), rfl, rfl⟩
  | tick =>
    refine ⟨_, rfl, tickStep_ec s, ?_⟩
    simp only [envStep, tickStep, settleTick]
    split <;> exact ⟨rfl, rfl⟩
  | _ => cases hm

/-- A run of such moves outside the EC phases. -/
theorem run_deliveryMoves {ms rest : List Move} (hm : ∀ m ∈ ms, deliveryMove m = true) {s : State}
    (hp : s.phase.isEc = false) (hs : s.sched = ms ++ rest) :
    ∃ t, core.run ms.length s = .next t ∧ t.ec = ms.foldl Ec.afterMove s.ec := by
  induction ms generalizing s with
  | nil => exact ⟨s, rfl, rfl⟩
  | cons m ms ih =>
    obtain ⟨u, hu, he, hph, hsc⟩ := act_deliveryMove (hm m List.mem_cons_self) (s := { s with sched := ms ++ rest }) hp
    obtain ⟨t, ht, hte⟩ := ih (fun m' h => hm m' (List.mem_cons_of_mem m h)) (by rw [hph]; exact hp) hsc
    refine ⟨t, ?_, by rw [hte, he]; rfl⟩
    have hstep : core.step s = .next u := (step_of_sched hs).trans hu
    simp only [List.length_cons, Host.Core.run, hstep, ht]

theorem foldl_afterMove_ticks (n : Nat) (e : Ec) :
    (List.replicate n Move.tick).foldl Ec.afterMove e = Ec.tick^[n] e := by
  induction n generalizing e with
  | zero => rfl
  | succ n ih => exact ih e.tick

/-- The schedule of a delivery makes its register writes one after the other. -/
theorem foldl_afterMove_foreignMoves (ps : List Pair) (n : Nat) (e : Ec) :
    (foreignMoves ps n).foldl Ec.afterMove e = ps.foldl (Ec.foreignPair n) e := by
  induction ps generalizing e with
  | nil => rfl
  | cons p ps ih =>
    have hcons : foreignMoves (p :: ps) n =
        [.foreignWrite .index p.index .ok, .foreignWrite .data p.value .ok] ++ List.replicate n .tick ++
          foreignMoves ps n := rfl
    rw [hcons, List.foldl_append, List.foldl_append, foldl_afterMove_ticks, ih]
    rfl

/-- The EC after FOREIGN's register writes outside the EC phases. -/
theorem run_foreignMoves {ps : List Pair} {n : Nat} {rest : List Move} {s : State} (hp : s.phase.isEc = false)
    (hs : s.sched = foreignMoves ps n ++ rest) :
    ∃ t, core.run (foreignMoves ps n).length s = .next t ∧ t.ec = ps.foldl (Ec.foreignPair n) s.ec := by
  obtain ⟨t, ht, he⟩ := run_deliveryMoves (fun m => deliveryMove_of_mem_foreignMoves) hp hs
  exact ⟨t, ht, he.trans (foldl_afterMove_foreignMoves ps n s.ec)⟩

/-! A clean delivery. -/

/-- From the EC `e₀` FOREIGN has made the register writes `ps`, the trigger write not among them, and has issued the
index-port write of the next. Where `e₀` is settled EC_RAM is as it was, and no cycle of the latch came before `ps`. -/
structure Delivering (e₀ : Ec) (ps : List Pair) (e : Ec) : Prop where
  owner : e.owner = .foreign
  latency : e.latencyUs = e₀.latencyUs
  pairs : ∃ before, e.pairs = ps.reverse ++ before ∧ (e₀.settled = true → latchCycled before = false)
  ram : e₀.settled = true → e.ram = e₀.ram

theorem delivering_nil (e : Ec) : Delivering e [] (e.issueIndex .foreign) where
  owner := rfl
  latency := issueIndex_latencyUs e .foreign
  pairs := ⟨_, rfl, fun h => (issueIndex_of_settled h .foreign).2⟩
  ram h := (issueIndex_of_settled h .foreign).1

/-- The register write is completed, the gap passes, and the next one begins. -/
theorem Delivering.next {e₀ e : Ec} {ps : List Pair} (h : Delivering e₀ ps e) {p : Pair} (hp : p ≠ triggerPair)
    {n : Nat} (hn : e₀.latencyUs + 1 ≤ n) :
    Delivering e₀ (ps ++ [p]) ((Ec.tick^[n] (e.pairDone p)).issueIndex .foreign) := by
  have hw : (e.pairDone p).triggered = false := by simp [Ec.triggered, Ec.pairDone, hp]
  have hg : ((e.pairDone p).count n).latencyUs + 1 ≤ ((e.pairDone p).count n).ticks :=
    h.latency ▸ hn.trans (Nat.le_add_left n 0)
  have ho : ((e.pairDone p).count n).owner = .foreign := h.owner
  rw [iterate_tick_of_waiting (.inl hw), issueIndex_of_ready rfl (.inr ⟨ho, hg⟩)]
  obtain ⟨before, hb, hc⟩ := h.pairs
  exact { h with owner := rfl, pairs := ⟨before, by simp [Ec.pairDone, hb], hc⟩ }

theorem delivering_foldl {e₀ : Ec} {n : Nat} (hn : e₀.latencyUs + 1 ≤ n) {ps : List Pair} (hp : triggerPair ∉ ps) :
    Delivering e₀ ps ((ps.foldl (Ec.foreignPair n) e₀).issueIndex .foreign) := by
  induction ps using List.reverseRecOn with
  | nil => exact delivering_nil e₀
  | append_singleton ps p ih =>
    simp only [List.mem_append, List.mem_singleton, not_or] at hp
    rw [List.foldl_append, List.foldl_cons, List.foldl_nil, foreignPair_eq]
    exact (ih hp.1).next (Ne.symm hp.2) hn

/-- `buildSeq` ends with its only trigger write (R78, R127). -/
theorem buildSeq_eq_append_trigger (t v : Byte) :
    (buildSeq t v).toList = (buildSeq t v).toList.dropLast ++ [triggerPair] := rfl

theorem triggerPair_notMem_dropLast_buildSeq (t v : Byte) : triggerPair ∉ (buildSeq t v).toList.dropLast := by
  simp [buildSeq, triggerPair]

/-- The trigger write after the other register writes of `buildSeq` makes an exact delivery, whatever came before. -/
theorem exactDelivery_buildSeq (t v : Byte) (before : List Pair) :
    exactDelivery (triggerPair :: ((buildSeq t v).toList.dropLast.reverse ++ before)) = some (t, v) := by
  simp [exactDelivery, buildSeq, triggerPair]

/-- What a clean delivery leaves known: its own byte, and every other as before where the EC was settled (R79). -/
theorem foldl_foreignPair_buildSeq (e : Ec) (t v : Byte) {n : Nat} (hn : e.latencyUs + 1 ≤ n) :
    ((buildSeq t v).toList.foldl (Ec.foreignPair n) e).known t = some v ∧
      (e.settled = true → ∀ a, a ≠ t → ((buildSeq t v).toList.foldl (Ec.foreignPair n) e).known a = e.known a) := by
  have hd := delivering_foldl hn (triggerPair_notMem_dropLast_buildSeq t v)
  rw [buildSeq_eq_append_trigger, List.foldl_append, List.foldl_cons, List.foldl_nil, foreignPair_eq]
  generalize Ec.issueIndex .foreign _ = d at hd ⊢
  obtain ⟨before, hb, hc⟩ := hd.pairs
  have hp : (d.pairDone triggerPair).pairs = triggerPair :: ((buildSeq t v).toList.dropLast.reverse ++ before) :=
    congrArg (triggerPair :: ·) hb
  have hx : exactDelivery (d.pairDone triggerPair).pairs = some (t, v) := hp ▸ exactDelivery_buildSeq t v before
  have hl : (d.pairDone triggerPair).latencyUs + 1 ≤ n := by rw [← hd.latency] at hn; exact hn
  have hk : ∀ a, (Ec.tick^[n] (d.pairDone triggerPair)).known a =
      Memory.read ((d.pairDone triggerPair).commit t v).ram a :=
    iterate_tick_known_of_exact rfl rfl hx hl
  constructor
  · rw [hk]
    obtain hr | hr := commit_ram (d.pairDone triggerPair) t v <;> rw [hr, Memory.read_write_same]
  · intro hs a ha
    have hdrop : (d.pairDone triggerPair).pairs.drop 8 = before := by rw [hp]; rfl
    rw [hk, commit_ram_of_uncycled _ t v (hdrop ▸ hc hs), Memory.read_write_other _ _ _ _ ha, known_of_settled hs]
    exact congrArg (Memory.read · a) (hd.ram hs)

/-! Register writes without a cycle of the latch. -/

/-- EC_RAM is `m`, and the register writes of FOREIGN in progress, the last of them at least `gap` ticks ago, stay without
a cycle of the latch when the register writes `ps` follow. -/
structure Ignoring (m : Memory) (gap : Nat) (ps : List Pair) (e : Ec) : Prop where
  ram : e.ram = m
  stale : e.stale = true → m = []
  half : e.half = .none
  owner : e.pairs = [] ∨ e.owner = .foreign ∧ gap ≤ e.ticks
  uncycled : latchCycled (ps.reverse ++ e.pairs) = false

section
variable {m : Memory} {gap : Nat} {ps : List Pair} {e : Ec} (h : Ignoring m gap ps e)
include h

/-- The end of an uncycled delivery leaves EC_RAM unchanged; where nothing of it is known all is forgotten (R80, R81). -/
theorem Ignoring.deliveryEnds : Ignoring m gap ps e.deliveryEnds := by
  have hc : latchCycled e.pairs = false := latchUncycled_of_sublist (List.sublist_append_right ..) h.uncycled
  simp only [Ec.deliveryEnds, exactDelivery_of_uncycled hc, hc, Bool.or_false]
  split
  case isTrue hs =>
    exact
      { ram := (h.stale hs).symm, stale := fun _ => h.stale hs, half := rfl, owner := .inl rfl
        uncycled := latchUncycled_of_sublist (List.append_sublist_append_left _ |>.2 (List.nil_sublist e.pairs))
          h.uncycled }
  case isFalse => exact h

theorem Ignoring.tick : Ignoring m (gap + 1) ps e.tick := by
  have hc : Ignoring m (gap + 1) ps (e.count 1) :=
    { h with owner := h.owner.imp_right (And.imp_right Nat.succ_le_succ) }
  rw [tick_eq]
  split
  · exact hc.deliveryEnds
  · exact hc

theorem Ignoring.iterate_tick (n : Nat) : Ignoring m (gap + n) ps (Ec.tick^[n] e) := by
  induction n with
  | zero => exact h
  | succ n ih =>
    rw [Function.iterate_succ_apply']
    exact ih.tick

/-- After the gap what is not `stale` is settled. -/
theorem Ignoring.settled (hg : e.latencyUs + 1 ≤ gap) (hs : e.stale = false) : e.settled = true := by
  cases hi : e.inProgress with
  | false => exact settled_of_idle hi
  | true =>
    have hne : e.pairs ≠ [] := fun hp => by simp [(inProgress_eq_false e).2 ⟨hp, h.half⟩] at hi
    obtain ⟨-, ht⟩ := h.owner.resolve_left hne
    exact (settled_iff_of_inProgress hi).2
      ⟨h.half, hg.trans ht, latchUncycled_of_sublist (List.sublist_append_right ..) h.uncycled, hs⟩

/-- After the gap every byte is known as EC_RAM holds it (R80). -/
theorem Ignoring.known (hg : e.latencyUs + 1 ≤ gap) (a : Byte) : e.known a = Memory.read m a := by
  cases hs : e.stale with
  | false => rw [known_of_settled (h.settled hg hs), h.ram]
  | true => simp [Ec.known, h.ram, h.stale hs, Memory.unlisted]
end

/-- A register write of FOREIGN after the gap. -/
theorem Ignoring.foreignPair {m : Memory} {gap : Nat} {p : Pair} {ps : List Pair} {e : Ec}
    (h : Ignoring m gap (p :: ps) e) (hg : e.latencyUs + 1 ≤ gap) (n : Nat) : Ignoring m n ps (e.foreignPair n p) := by
  have hi : e.issueIndex .foreign = { e with owner := .foreign, half := .indexIssued, draws := e.draws + 1 } :=
    issueIndex_of_ready h.half (h.owner.imp_right (And.imp_right hg.trans))
  have hw : Ignoring m 0 ps ((e.issueIndex .foreign).pairDone p) := by
    rw [hi]
    exact { h with half := rfl, owner := .inr ⟨rfl, le_rfl⟩, uncycled := by simpa [Ec.pairDone] using h.uncycled }
  rw [foreignPair_eq]
  simpa using hw.iterate_tick n

/-- Register writes of FOREIGN that keep the gaps, without a cycle of the latch, leave EC_RAM unchanged (R80). -/
theorem Ignoring.foldl_foreignPair {m : Memory} {n : Nat} {ps : List Pair} {e : Ec} (h : Ignoring m n ps e)
    (hn : e.latencyUs + 1 ≤ n) (a : Byte) : (ps.foldl (Ec.foreignPair n) e).known a = Memory.read m a := by
  induction ps generalizing e with
  | nil => exact h.known hn a
  | cons p ps ih => exact ih (h.foreignPair hn n) (by simpa using hn)

end Sys2Proof.Machine
end

section
/-! The obligations of spec/20_memory.md. -/

namespace Sys2Proof.Settled

open Sys2Proof.Machine Sys2Proof.Safety

/-- Settles O35: each address lies in one of the ranges of `hostRead`. -/
theorem hostRegisterMap : Obligations.HostRegisterMap := by
  intro s
  refine ⟨rfl, ?_, fun k h => ?_, fun k h => ?_, fun a => hostRead_reserved s⟩
  · change (s.settleUs.setWidth 32).toNat = s.settleUs.toNat
    exact BitVec.toNat_setWidth_of_le (by decide)
  · have ha : (BitVec.ofNat 8 (0x10 + k)).toNat = 0x10 + k := by rw [BitVec.toNat_ofNat]; omega
    rw [hostRead_frame s h ha, BitVec.toNat_setWidth_of_le (by decide)]
  · have ha : (BitVec.ofNat 8 (0x60 + k)).toNat = 0x60 + k := by rw [BitVec.toNat_ofNat]; omega
    rw [hostRead_seq s h ha, pairWord_toNat]

/-- Settles O41: in an EC phase the write makes the EC forget everything. -/
theorem foreignWriteSpoilsARunningSequence : Obligations.ForeignWriteSpoilsARunningSequence := by
  intro s p b resp rest hs
  refine ⟨if s.phase.isEc then s.ec.forget else s.ec.foreignWrite p b resp, step_of_sched hs, fun hp => ?_⟩
  rw [if_pos hp]
  exact ecUnknown_forget s.ec

/-- Settles O42: the eighth register write makes the delivery exact, and the tick that ends its gap commits it. -/
theorem cleanForeignDeliveryCommits : Obligations.CleanForeignDeliveryCommits := by
  intro s t v n rest hp hn hs
  obtain ⟨s', hrun, he⟩ := run_foreignMoves hp hs
  exact ⟨s', hrun, he ▸ foldl_foreignPair_buildSeq s.ec t v hn⟩

/-- Settles O43: without a cycle of the latch no register writes are exact, so none commits. -/
theorem deliveryWithoutLatchCycleIsIgnored : Obligations.DeliveryWithoutLatchCycleIsIgnored := by
  intro s ps n rest hp hi hst hn hc hs
  obtain ⟨hpairs, hhalf⟩ := (inProgress_eq_false s.ec).1 hi
  have h : Ignoring s.ec.ram n ps s.ec :=
    { ram := rfl, stale := hst, half := hhalf, owner := .inl hpairs, uncycled := by simpa [hpairs] using hc }
  obtain ⟨s', hrun, he⟩ := run_foreignMoves hp hs
  refine ⟨s', hrun, fun a => ?_⟩
  rw [he, h.foldl_foreignPair hn, known_of_settled (settled_of_idle hi)]

/-- Settles O44: every other move keeps EC_RAM or makes it unknown. -/
theorem ecRamChangesOnlyByDelivery : Obligations.EcRamChangesOnlyByDelivery := by
  intro s s' a v hstep hr hn
  obtain ⟨l, d, ha⟩ := exists_acted_of_step hstep
  obtain ⟨hm, he⟩ | hk | hk := acted_ram ha
  · exact ⟨hm, tick_read (he ▸ hr) hn⟩
  · exact absurd (hk ▸ hr) hn
  · rw [hk] at hr
    cases hr

/-- Settles O45: each operation of the EC keeps its account beside the event that records it. -/
theorem everyStepKeepsDeliveryOnRecord : Obligations.EveryStepKeepsDeliveryOnRecord := by
  intro s s' h hstep
  obtain ⟨l, d, ha⟩ := exists_acted_of_step hstep
  exact deliveryOnRecord_acted (s := { s with sched := l, draws := d }) h ha

/-- Settles O7: the accepted state is written out field by field in the statement. -/
theorem stepRunsTheDecodedCommand : Obligations.StepRunsTheDecodedCommand := by
  intro s w i rest hs hp hd
  have hstep : step s = issueStep w { s with sched := rest } := (step_of_sched hs).trans (if_pos hp)
  rw [hstep, issueStep, hd]
  rfl

/-- Settles O9: of a busy block the issue is no move. -/
theorem busyPortAcceptsNothing : Obligations.BusyPortAcceptsNothing := by
  intro s w rest hs hp
  exact (step_of_sched hs).trans (act_of_busy hp)

/-- Settles O37: the read is no move of the machine, and `hostRead` names four registers. -/
theorem hostReadsChangeNothing : Obligations.HostReadsChangeNothing := by
  intro s a rest hs
  refine ⟨step_of_sched hs, fun t hst hsu hf hq => ?_⟩
  simp only [hostRead, hst, hsu, hf, hq]

end Sys2Proof.Settled
end

section
/-! SUPPORT. What the decoder answers, in terms of the fields of the word (spec/30_encoding.md R111 to R113, R133,
R134), and that it reads no bit but those its opcode uses (R112). -/

namespace Sys2Proof

open Sys2Proof.Safety

/-! The fields that a mask keeps. -/

/-- A field whose bits are all set in the mask. -/
theorem extractLsb'_and_of_ones {w m : CmdWord} {k n : Nat} (h : m.extractLsb' k n = BitVec.allOnes n) :
    (w &&& m).extractLsb' k n = w.extractLsb' k n := by
  rw [BitVec.extractLsb'_and, h, BitVec.and_allOnes]

section
variable {w m : CmdWord}

theorem op_and (h : CmdWord.op m = BitVec.allOnes 4) : CmdWord.op (w &&& m) = w.op :=
  extractLsb'_and_of_ones h

theorem rsv0_and (h : CmdWord.rsv0 m = BitVec.allOnes 4) : CmdWord.rsv0 (w &&& m) = w.rsv0 :=
  extractLsb'_and_of_ones h

theorem fieldA_and (h : CmdWord.fieldA m = BitVec.allOnes 8) : CmdWord.fieldA (w &&& m) = w.fieldA :=
  extractLsb'_and_of_ones h

theorem fieldB_and (h : CmdWord.fieldB m = BitVec.allOnes 8) : CmdWord.fieldB (w &&& m) = w.fieldB :=
  extractLsb'_and_of_ones h

theorem fieldC_and (h : CmdWord.fieldC m = BitVec.allOnes 8) : CmdWord.fieldC (w &&& m) = w.fieldC :=
  extractLsb'_and_of_ones h

theorem fieldD_and (h : CmdWord.fieldD m = BitVec.allOnes 8) : CmdWord.fieldD (w &&& m) = w.fieldD :=
  extractLsb'_and_of_ones h

theorem fieldE_and (h : CmdWord.fieldE m = BitVec.allOnes 8) : CmdWord.fieldE (w &&& m) = w.fieldE :=
  extractLsb'_and_of_ones h

theorem fieldF_and (h : CmdWord.fieldF m = BitVec.allOnes 8) : CmdWord.fieldF (w &&& m) = w.fieldF :=
  extractLsb'_and_of_ones h

theorem rsv1_and (h : CmdWord.rsv1 m = BitVec.allOnes 8) : CmdWord.rsv1 (w &&& m) = w.rsv1 :=
  extractLsb'_and_of_ones h

theorem hasReservedBits_and (h0 : CmdWord.rsv0 m = BitVec.allOnes 4) (h1 : CmdWord.rsv1 m = BitVec.allOnes 8) :
    CmdWord.hasReservedBits (w &&& m) = w.hasReservedBits := by
  simp only [CmdWord.hasReservedBits, rsv0_and h0, rsv1_and h1]
end

/-- Every opcode uses OP. -/
theorem op_and_usedBits (w : CmdWord) (op : BitVec 4) : CmdWord.op (w &&& usedBits op) = w.op := by
  unfold usedBits
  split <;> exact op_and rfl

/-- No bit but those its opcode uses changes what a word decodes to (R112). -/
theorem decode_and_usedBits (w : CmdWord) : decode (w &&& usedBits w.op) = decode w := by
  have hw := w.op.isLt
  unfold decode
  rw [op_and_usedBits]
  unfold usedBits
  generalize w.op.toNat = n at hw ⊢
  interval_cases n <;>
    simp (disch := decide) only [hasReservedBits_and, fieldA_and, fieldB_and, fieldC_and, fieldD_and, fieldE_and,
      fieldF_and]

/-- The mask of the reserved fields keeps these alone (R110). -/
theorem and_reservedMask (w : CmdWord) :
    w &&& (0xFF000000000000F0 : CmdWord) = w.rsv0.setWidth 64 <<< 4 ||| w.rsv1.setWidth 64 <<< 56 := by
  ext k hk
  unfold CmdWord.rsv0 CmdWord.rsv1
  interval_cases k <;> simp [BitVec.getLsbD_eq_getElem]

theorem and_reservedMask_eq_zero (w : CmdWord) :
    w &&& (0xFF000000000000F0 : CmdWord) = 0 ↔ w.hasReservedBits = false := by
  constructor
  · intro h
    rw [← hasReservedBits_and (w := w) (m := 0xFF000000000000F0) rfl rfl, h]
    rfl
  · intro h
    obtain ⟨h0, h1⟩ := (hasReservedBits_eq_false w).1 h
    rw [and_reservedMask, h0, h1]
    rfl

/-! Which words are commands. -/

/-- The reserved opcodes (R134). -/
def reservedOps : List (BitVec 4) := [0x0, 0x6, 0x7, 0xE, 0xF]

theorem mem_reservedOps_iff (op : BitVec 4) :
    op ∈ reservedOps ↔ op.toNat = 0 ∨ op.toNat = 6 ∨ op.toNat = 7 ∨ op.toNat = 14 ∨ op.toNat = 15 := by
  simp [reservedOps, ← BitVec.toNat_inj]

/-- The decoder rejects a word with a reserved bit set and a valid opcode, and no other (R111, R133). -/
theorem decode_cases (w : CmdWord) :
    (w.op ∉ reservedOps ∧ w.hasReservedBits = true ∧ decode w = .error (.reservedField w.op)) ∨
      (w.op ∈ reservedOps ∨ w.hasReservedBits = false) ∧ ∃ i, decode w = .ok i := by
  rw [mem_reservedOps_iff]
  unfold decode
  split
  case h_6 h0 h6 h7 hE hF =>
    split
    case isTrue hr => exact .inl ⟨by rintro (h | h | h | h | h) <;> contradiction, hr, rfl⟩
    case isFalse hr =>
      refine .inr ⟨.inr (by simpa using hr), ?_⟩
      split <;> exact ⟨_, rfl⟩
  all_goals exact .inr ⟨.inl (by omega), _, rfl⟩

/-- A command of a valid opcode has no reserved bit set (R111). -/
theorem hasReservedBits_of_decode {w : CmdWord} {i : Instr} (h : decode w = .ok i) (hop : w.op ∉ reservedOps) :
    w.hasReservedBits = false := by
  obtain ⟨-, -, he⟩ | ⟨hr, -⟩ := decode_cases w
  · rw [h] at he
    cases he
  · exact hr.resolve_left hop

theorem decode_of_reservedBits {w : CmdWord} (hop : w.op ∉ reservedOps) (hr : w.hasReservedBits = true) :
    decode w = .error (.reservedField w.op) := by
  obtain ⟨-, -, he⟩ | ⟨hk, -⟩ := decode_cases w
  · exact he
  · simp [hop, hr] at hk

theorem opcode_mem_reservedOps (i : Instr) :
    i.opcode ∈ reservedOps ↔ i ∈ [Instr.reserved0, .reserved6, .reserved7, .reservedE, .reservedF] := by
  cases i <;> simp [Instr.opcode, reservedOps]

/-- The row's mask, by the kind of its opcode (R113, R134). -/
theorem rowMask_eq (i : Instr) :
    i.rowMask = if i.opcode ∈ reservedOps then 0x000000000000000F else 0xFF000000000000FF := by
  cases i <;> rfl

/-! The assembler. -/

section
variable {ν : Type} (value : ν → Nat) (b : Byte)

@[simp] theorem inByte_num_toNat : (AsmArg.num b.toNat : AsmArg ν).inByte = true := decide_eq_true b.isLt

@[simp] theorem byte_num_toNat : (AsmArg.num b.toNat).byte value = b := by
  simp [AsmArg.byte]
end

/-- The sixteen bits of CFG.SETTLE's operand lie together in fields A and B (R115). -/
theorem cmdWord_settle (us : Micros) :
    cmdWord 0x5 (us.extractLsb' 0 8) (us.extractLsb' 8 8) 0 0 0 0 = 0x0000000000000005 ||| us.setWidth 64 <<< 8 := by
  have hlow : (us.extractLsb' 0 8).setWidth 64 <<< 8 ||| (us.extractLsb' 8 8).setWidth 64 <<< 16 =
      us.setWidth 64 <<< 8 := by
    ext k hk
    interval_cases k <;> simp [BitVec.getLsbD_eq_getElem]
  simp [cmdWord, BitVec.or_assoc, hlow]

theorem assemble_eq_none (l : AsmLine) : l.assemble = none ↔ l.wellFormed = false := by
  simp [AsmLine.assemble]

/-- Only the encoding of its command can be a line's word (R129). -/
theorem eq_encode_of_assemble {l : AsmLine} {w : CmdWord} (h : l.assemble = some w) : w = encode l.instr := by
  unfold AsmLine.assemble at h
  split at h
  · exact (Option.some.inj h).symm
  · cases h

end Sys2Proof
end

section
/-! SUPPORT. The acceptance of a word that only raises InvalidArgument (spec/30_encoding.md R111, R134). -/

namespace Sys2Proof.Machine

/-- A reserved opcode's meaning is InvalidArgument (R134). -/
theorem exec_of_reservedOp {i : Instr} (h : i.opcode ∈ reservedOps) (s : State) :
    exec i s = .next (raiseInvalid s) := by
  rw [opcode_mem_reservedOps] at h
  simp only [List.mem_cons, List.not_mem_nil, or_false] at h
  obtain rfl | rfl | rfl | rfl | rfl := h <;> rfl

/-- The idle block accepts the word that the host is to issue (R73). -/
theorem step_of_issue {s : State} {w : CmdWord} {rest : List Move} (hs : s.sched = .issue w :: rest)
    (hp : s.phase = .idle) : step s = issueStep w { s with sched := rest } :=
  (step_of_sched hs).trans (if_pos hp)

theorem issueStep_of_reservedOp {w : CmdWord} (h : w.op ∈ reservedOps) (s : State) :
    issueStep w s = .next (raiseInvalid (accept w s)) := by
  obtain ⟨hop, -⟩ | ⟨-, i, hi⟩ := decode_cases w
  · exact absurd h hop
  · rw [issueStep, hi]
    exact exec_of_reservedOp (opcode_of_decode hi ▸ h) _

/-- A reserved bit ends a word of any opcode as it ends a rejected one (R111, R134). -/
theorem issueStep_of_reservedBits {w : CmdWord} (h : w.hasReservedBits = true) (s : State) :
    issueStep w s = .next (rejectWord (.reservedField w.op) (accept w s)) := by
  by_cases hop : w.op ∈ reservedOps
  · have hb : ¬(w.op = 0x1 ∨ w.op = 0x2 ∨ w.op = 0x3) := by
      rintro (hw | hw | hw) <;> simp [hw, reservedOps] at hop
    rw [issueStep_of_reservedOp hop, rejectWord, if_neg hb]
  · rw [issueStep, decode_of_reservedBits hop h]

end Sys2Proof.Machine
end

section
/-! The obligations of spec/30_encoding.md. -/

namespace Sys2Proof.Settled

open Sys2Proof.Machine Sys2Proof.Safety

/-- Settles O1: the fields of the encoded word are the operands, for CFG.SETTLE its operand's two bytes. -/
theorem decodeEncodeRoundTrip : Obligations.DecodeEncodeRoundTrip := by
  intro i
  cases i with
  | cfgSettle us =>
    have hus : settleOperand (us.extractLsb' 8 8) (us.extractLsb' 0 8) = us := settleOperand_bytes us
    simp [encode, Instr.opcode, decode, hus]
  | _ => simp [encode, Instr.opcode, decode]

/-- Settles O2: the row's mask keeps the opcode, and of the reserved fields only what is zero. -/
theorem decodedWordLiesInItsRow : Obligations.DecodedWordLiesInItsRow := by
  intro w i h
  rw [rowMask_eq, Instr.rowMatch, opcode_of_decode h]
  split
  case isTrue => exact and_opMask w
  case isFalse hop =>
    obtain ⟨h0, h1⟩ := (hasReservedBits_eq_false w).1 (hasReservedBits_of_decode h hop)
    rw [and_validMask, h0, h1]
    simp

/-- Settles O3: a word is rejected only for a reserved bit, and a command has its word's opcode. -/
theorem validWordsAreThoseOfTheMap : Obligations.ValidWordsAreThoseOfTheMap := by
  intro w
  have hi : ∀ i : Instr, (i ≠ .reserved0 ∧ i ≠ .reserved6 ∧ i ≠ .reserved7 ∧ i ≠ .reservedE ∧ i ≠ .reservedF) ↔
      i.opcode ∉ reservedOps := fun i => by simp [opcode_mem_reservedOps]
  have hw : (w.op ≠ 0x0 ∧ w.op ≠ 0x6 ∧ w.op ≠ 0x7 ∧ w.op ≠ 0xE ∧ w.op ≠ 0xF) ↔ w.op ∉ reservedOps := by
    simp [reservedOps]
  rw [and_reservedMask_eq_zero, hw]
  simp only [hi]
  constructor
  · rintro ⟨i, hd, hop⟩
    rw [opcode_of_decode hd] at hop
    exact ⟨hasReservedBits_of_decode hd hop, hop⟩
  · rintro ⟨hr, hop⟩
    obtain ⟨-, hr', -⟩ | ⟨-, i, hd⟩ := decode_cases w
    · rw [hr] at hr'
      cases hr'
    · exact ⟨i, hd, opcode_of_decode hd ▸ hop⟩

/-- Settles O4: a word decodes as the word of its used bits does. -/
theorem unusedFieldsAreIgnored : Obligations.UnusedFieldsAreIgnored := by
  intro w w' h
  have hop : w'.op = w.op := by rw [← op_and_usedBits w', ← h, op_and_usedBits]
  calc decode w = decode (w &&& usedBits w.op) := (decode_and_usedBits w).symm
    _ = decode (w' &&& usedBits w'.op) := by rw [h, hop]
    _ = decode w' := decode_and_usedBits w'

/-- Settles O5, by running the decoder. -/
theorem writtenOutWordsDecode : Obligations.WrittenOutWordsDecode := by
  unfold Obligations.WrittenOutWordsDecode
  decide

/-- Settles O6: a name and its number are one byte, and a line's word is the encoding of its command. -/
theorem assembledLineDecodesToItsCommand : Obligations.AssembledLineDecodesToItsCommand := by
  have hb : ∀ b : Byte, b.toNat < 256 := fun b => b.isLt
  -- the pseudo-instructions and their expansions are the same command, with the same range, by definition
  refine ⟨fun zone mode r g b bri perf t v us => ?_, ?_, ?_, ?_, ?_, fun _ _ _ _ _ => rfl, rfl, rfl, fun _ _ => rfl,
    fun l w h => ?_, fun zone mode r g b bri perf t v us => ?_, assemble_eq_none⟩
  · have hus : us.toNat < 65536 := us.isLt
    rw [← cmdWord_settle] -- CFG.SETTLE's word too is built from its fields
    refine ⟨?_, ?_, ?_, rfl, ?_, ?_, ?_, ?_, ?_, rfl, rfl⟩ <;>
      simp [AsmLine.assemble, AsmLine.wellFormed, AsmLine.instr, encode, Instr.opcode, hb, hus]
  · simp only [List.forall_mem_cons, List.not_mem_nil, false_imp_iff, implies_true, and_true]
    refine ⟨?_, ?_, ?_, ?_, ?_⟩ <;> intro mode r g b bri <;> rfl
  · simp only [List.forall_mem_cons, List.not_mem_nil, false_imp_iff, implies_true, and_true]
    refine ⟨?_, ?_, ?_, ?_, ?_, ?_, ?_⟩ <;> intro zone r g b bri <;> exact ⟨rfl, rfl⟩
  · decide
  · decide
  · rw [eq_encode_of_assemble h]
    exact decodeEncodeRoundTrip l.instr
  · simp only [assemble_eq_none, AsmLine.wellFormed, AsmArg.inByte, Bool.and_eq_false_iff, decide_eq_false_iff_not,
      not_lt, or_assoc, and_self]

/-- Settles O10: the word is a failed build where its opcode is a build's. -/
theorem reservedBitsRaiseInvalidArgument : Obligations.ReservedBitsRaiseInvalidArgument := by
  intro s w rest hs hp hr
  rw [step_of_issue hs hp, issueStep_of_reservedBits (by simpa [CmdWord.hasReservedBits, -ne_eq] using hr), rejectWord]
  split
  case isTrue h =>
    have hb : w.op ∈ ([0x1, 0x2, 0x3] : List (BitVec 4)) := by simpa using h
    simp only [hb, decide_true, Bool.not_true, Bool.and_false]
    rfl
  case isFalse h =>
    have hb : w.op ∉ ([0x1, 0x2, 0x3] : List (BitVec 4)) := by simpa using h
    simp only [hb, decide_false, Bool.not_false, Bool.and_true]
    rfl

/-- Settles O11: whatever its other bits, the word is the command of its reserved opcode. -/
theorem reservedOpcodeWordsRaiseInvalidArgument : Obligations.ReservedOpcodeWordsRaiseInvalidArgument := by
  intro s w rest hs hp hop
  rw [step_of_issue hs hp, issueStep_of_reservedOp hop]
  rfl

/-- Settles O12: the five have one meaning. -/
theorem reservedOpcodesOnlyRaise : Obligations.ReservedOpcodesOnlyRaise :=
  fun s i hi => exec_of_reservedOp ((opcode_mem_reservedOps i).2 hi) s

/-- Settles O14: the frame is the colour frame of this byte 1. -/
theorem legacyBuildCommitsItsFrame : Obligations.LegacyBuildCommitsItsFrame :=
  fun _ mode red green blue brightness hm =>
    ⟨colourFrame (legacyByte1 mode) colourLength red green blue brightness, if_pos (decide_eq_true hm),
      colourFrame_byte _ _ red green blue brightness⟩

/-- Settles O15: the frame is a colour frame with the byte alone. -/
theorem perfBuildCommitsItsFrame : Obligations.PerfBuildCommitsItsFrame := by
  intro s perf hp
  have hok : perfOk perf = true := by simpa [perfOk] using hp
  exact ⟨perfFrame perf, if_pos hok, perfFrame_eq perf ▸ colourFrame_byte perf 0 0 0 0 0⟩

end Sys2Proof.Settled
end

section
/-! SUPPORT. The framer's commands (spec/40_framer.md): what a build commits, by its operands' domains, the
checksum as a sum over the frame's bytes, and the two steps of a frame transfer. -/

namespace Sys2Proof.Machine

open Sys2Proof.Safety

/-! The byte-1 packing (spec/30_encoding.md R120 to R126). -/

/-- Each zone has its row, and the packing gives the table's byte (R120, R122, R126). -/
theorem exists_zoneRow {zone mode : Byte} (hz : zone.toNat ≤ 4) (hm : mode.toNat ≤ 6) :
    ∃ row, zoneRow zone = some row ∧ zonedByte1 row mode = byte1At zone mode := by
  have table : ∀ z ≤ 4, ∀ m ≤ 6, (zoneRow (.ofNat 8 z)).map (zonedByte1 · (.ofNat 8 m)) =
      some (byte1At (.ofNat 8 z) (.ofNat 8 m)) := by decide
  simpa using table _ hz _ hm

theorem zoneRow_eq_none {zone : Byte} (hz : 4 < zone.toNat) : zoneRow zone = none := by
  unfold zoneRow
  split
  case h_6 => rfl
  all_goals omega

/-- Zone All packs as the legacy form does (R123, R126). -/
theorem byte1At_all {mode : Byte} (hm : mode.toNat ≤ 6) : byte1At 0 mode = legacyByte1 mode := by
  have table : ∀ m ≤ 6, byte1At 0 (.ofNat 8 m) = legacyByte1 (.ofNat 8 m) := by decide
  simpa using table _ hm

/-! Builds. -/

section
variable {zone mode perf : Byte} (red green blue brightness : Byte) (s : State)

theorem exec_frmZoned_of_valid (hz : zone.toNat ≤ 4) (hm : mode.toNat ≤ 6) :
    exec (.frmZoned zone mode red green blue brightness) s =
      .next (commitFrame (colourFrame (byte1At zone mode) colourLength red green blue brightness) s) := by
  obtain ⟨row, hrow, hbyte⟩ := exists_zoneRow hz hm
  simp [exec, execFrmZoned, hrow, modeOk, hm, hbyte]

theorem exec_frmLegacy_of_valid (hm : mode.toNat ≤ 6) :
    exec (.frmLegacy mode red green blue brightness) s =
      .next (commitFrame (colourFrame (legacyByte1 mode) colourLength red green blue brightness) s) :=
  if_pos (decide_eq_true hm)

theorem exec_frmPerf_of_valid (hp : perf = 0x40 ∨ perf = 0x41 ∨ perf = 0x42) :
    exec (.frmPerf perf) s = .next (commitFrame (perfFrame perf) s) :=
  if_pos (decide_eq_true hp)
end

/-- A build with its operands in their domains commits one sealed frame from every state (R150, R158). -/
theorem exists_frame_of_validBuild {i : Instr} (hop : i.opcode ∈ [0x1, 0x2, 0x3]) (hw : i.wellFormed = true) :
    ∃ f, Sealed f ∧ ∀ s, exec i s = .next (commitFrame f s) := by
  cases i with
  | frmZoned zone mode r g b bri =>
    obtain ⟨hz, hm⟩ : zone.toNat ≤ 4 ∧ mode.toNat ≤ 6 := by simpa [Instr.wellFormed] using hw
    exact ⟨_, colourFrame_sealed .., fun s => exec_frmZoned_of_valid r g b bri s hz hm⟩
  | frmLegacy mode r g b bri =>
    exact ⟨_, colourFrame_sealed .., fun s => exec_frmLegacy_of_valid r g b bri s (of_decide_eq_true hw)⟩
  | frmPerf perf =>
    exact ⟨perfFrame perf, perfFrame_eq perf ▸ colourFrame_sealed ..,
      fun s => exec_frmPerf_of_valid s (of_decide_eq_true hw)⟩
  | _ => simp [Instr.opcode] at hop

/-- A build with an operand out of its domain is refused in every state (R161). -/
theorem exec_of_invalidBuild {i : Instr} (hop : i.opcode ∈ [0x1, 0x2, 0x3]) (hw : i.wellFormed = false) (s : State) :
    exec i s = .next (failBuild s) := by
  cases i with
  | frmZoned zone mode r g b bri =>
    by_cases hz : zone.toNat ≤ 4
    · have hm : modeOk mode = false := by simpa [Instr.wellFormed, hz, modeOk] using hw
      simp only [exec, execFrmZoned, hm]
      split <;> rfl
    · simp [exec, execFrmZoned, zoneRow_eq_none (not_le.1 hz)]
  | frmLegacy mode r g b bri => exact if_neg (Bool.eq_false_iff.1 hw)
  | frmPerf perf => exact if_neg (Bool.eq_false_iff.1 hw)
  | _ => simp [Instr.opcode] at hop

/-! The checksum. -/

/-- The bytes that the checksum sums are bytes 1 to 62 (R150). -/
theorem cksumRange_bytes (f : Frame) :
    (f.toList.drop Config.cksumRange.1).take Config.cksumRange.2 = (List.range' 1 62).map (f.getD · 0) := by
  refine List.ext_getElem (by simp [Config.cksumRange]) fun k hk _ => ?_
  have h : 1 + k < 65 := by simp [Config.cksumRange] at hk; omega
  simp [Config.cksumRange, Vector.getD, Nat.add_comm k, h]

theorem cksum_toNat (f : Frame) : (cksum f).toNat = (∑ k ∈ Finset.Icc 1 62, (f.getD k 0).toNat) % 256 := by
  rw [cksum, cksumRange_bytes, List.map_map, BitVec.toNat_ofNat]
  rfl

/-! The frame transfer (R156). -/

/-- BLOCK's move in HID_REQ issues the HidWrite. -/
theorem step_of_hidReq {s : State} {rest : List Move} (hs : s.sched = .block :: rest) (hp : s.phase = .hidReq) :
    step s = .next (hidIssue { s with sched := rest }) := by
  rw [step_of_sched hs]
  simp [act, envStep, blockStep, hp]

/-- HIDT's move in HID_WAIT answers the outstanding HidWrite. -/
theorem step_of_hidWait {s : State} {f : Frame} {resp : Resp} {rest : List Move}
    (hs : s.sched = .hidAnswer resp :: rest) (hp : s.phase = .hidWait) (ho : s.outstanding = some (.hid f)) :
    step s = .next (hidRespond f resp { s with sched := rest }) := by
  rw [step_of_sched hs]
  simp [act, envStep, hidAnswer, hp, ho]

end Sys2Proof.Machine
end

section
/-! The obligations of spec/40_framer.md. -/

namespace Sys2Proof.Settled

open Sys2Proof.Machine Sys2Proof.Safety

/-- Settles O13: the frame is the colour frame of the table's byte 1. -/
theorem zonedBuildCommitsItsFrame : Obligations.ZonedBuildCommitsItsFrame :=
  fun s zone mode red green blue brightness hz hm =>
    ⟨colourFrame (byte1At zone mode) colourLength red green blue brightness,
      exec_frmZoned_of_valid red green blue brightness s hz hm,
      colourFrame_byte _ _ red green blue brightness⟩

/-- Settles O16: each of the three builds is ill-formed with such an operand. -/
theorem refusedBuildKeepsTheFrame : Obligations.RefusedBuildKeepsTheFrame := by
  rintro s i (⟨z, m, r, g, b, bri, rfl, h⟩ | ⟨m, r, g, b, bri, rfl, h⟩ | ⟨p, rfl, h⟩)
  all_goals exact exec_of_invalidBuild (by simp [Instr.opcode]) (by simpa [Instr.wellFormed, imp_iff_not_or] using h) s

/-- Settles O17: the two forms have the same mode check, and the same byte 1 where it passes. -/
theorem legacyEqualsZonedAll : Obligations.LegacyEqualsZonedAll := by
  intro s mode r g b bri
  by_cases hm : mode.toNat ≤ 6
  case pos =>
    have hz : exec (.frmZoned 0 mode r g b bri) s = _ := exec_frmZoned_of_valid r g b bri s (by decide) hm
    refine ⟨?_, fun _ => ⟨_, hz⟩⟩
    rw [hz, exec_frmLegacy_of_valid r g b bri s hm, byte1At_all hm]
  case neg =>
    refine ⟨?_, fun h => absurd h hm⟩
    rw [exec_of_invalidBuild (i := .frmLegacy mode r g b bri) (by simp [Instr.opcode]) (decide_eq_false hm),
      exec_of_invalidBuild (i := .frmZoned 0 mode r g b bri) (by simp [Instr.opcode]) (by simp [Instr.wellFormed, hm])]

/-- Settles O18: the frame is fixed before the state is named. -/
theorem buildersReadOnlyTheirOperands : Obligations.BuildersReadOnlyTheirOperands := by
  intro i hop hw
  obtain ⟨f, -, hf⟩ := exists_frame_of_validBuild hop hw
  exact ⟨f, hf⟩

/-- Settles O19: the frame that a build commits is sealed. -/
theorem checksumIsTheSumOfBytes1To62 : Obligations.ChecksumIsTheSumOfBytes1To62 := by
  refine ⟨cksum_toNat, fun i s hop hw => ?_⟩
  obtain ⟨f, hsealed, hf⟩ := exists_frame_of_validBuild hop hw
  exact ⟨_, hf s, hsealed.trailer⟩

/-- Settles O20: both checks of FRM.SEND pass. -/
theorem sendStartsTheTransfer : Obligations.SendStartsTheTransfer :=
  fun _ hv ho => (if_pos hv).trans (if_pos ho)

/-- Settles O21: the check of the frame comes before that of the handle. -/
theorem sendReportsItsErrorsInOrder : Obligations.SendReportsItsErrorsInOrder :=
  fun _ => ⟨fun hv => if_neg (Bool.eq_false_iff.1 hv),
    fun hv ho => (if_pos hv).trans (if_neg (Bool.eq_false_iff.1 ho))⟩

/-- Settles O22: in its two phases the block and the HID transport each have one move. -/
theorem sendTransfersTheFrame : Obligations.SendTransfersTheFrame := by
  refine fun s f resp rest => ⟨step_of_hidReq, fun hs hp ho => ?_⟩
  rw [step_of_hidWait hs hp ho, hidRespond]
  split <;> rfl

end Sys2Proof.Settled
end

section
/-! SUPPORT. The acceptance of the sequencer's commands and the FSM steps that follow it, one move at a time
(spec/41_sequencer.md R202 to R217). -/

namespace Sys2Proof.Machine

open Sys2Proof.Safety

/-! Acceptance. -/

/-- An EC command with its operand in its domain comes down to `start` (R204 to R208). -/
theorem exec_of_startArgs {i : Instr} {s : State} {n : BitVec 2} {t v pt pv : Byte}
    (ha : startArgs i s = some (n, t, v, pt, pv)) :
    exec i s = .next (start n t v { s with pendT := pt, pendV := pv }) := by
  cases i with
  | ecExec t v => cases ha; rfl
  | ecPerf m =>
    obtain ⟨hm, he⟩ : m.toNat ≤ 2 ∧ _ := by simpa [startArgs] using ha
    obtain ⟨rfl, rfl, rfl, rfl, rfl⟩ := he
    exact if_pos (decide_eq_true hm)
  | ecFan n =>
    obtain ⟨hn, he⟩ : n.toNat ≤ 1 ∧ _ := by simpa [startArgs] using ha
    obtain ⟨rfl, rfl, rfl, rfl, rfl⟩ := he
    exact if_pos (decide_eq_true hn)
  | ecMaxon => cases ha; rfl
  | ecMaxoff => cases ha; rfl
  | _ => cases ha

/-- The commands of one sequence start it and leave PEND_T and PEND_V alone (R204 to R206). -/
theorem startArgs_of_runsOne {i : Instr} {t v : Byte} (h : RunsOne i t v) (s : State) :
    startArgs i s = some (1, t, v, s.pendT, s.pendV) := by
  obtain rfl | ⟨rfl, rfl, hv⟩ | ⟨rfl, rfl, hv⟩ := h
  · rfl
  · exact if_pos hv
  · exact if_pos hv

/-- No meaning of a command but a start and a frame transfer leaves PHASE busy. -/
theorem accepted_phase {i : Instr} {s t : State} (h : Accepted i s t) :
    t.phase = s.phase ∨ t.phase = .idle ∨ t.phase = .hidReq ∨ t.phase = .ecIdx := by
  cases h with
  | built => exact .inl rfl
  | settle => exact .inl rfl
  | filled => exact .inl rfl
  | sending => exact .inr (.inr (.inl rfl))
  | started => exact .inr (.inr (.inr rfl))
  | _ => exact .inr (.inl rfl)

/-! The FSM: what the move that a phase waits for does. -/

section
variable {s : State} {rest : List Move}

/-- BLOCK's move in EC_IDX issues the index-port write (R210). -/
theorem step_of_ecIdx (hs : s.sched = .block :: rest) (hp : s.phase = .ecIdx) :
    step s = .next (indexIssue { s with sched := rest }) := by
  rw [step_of_sched hs]
  simp [act, envStep, blockStep, hp]

/-- PORTT's move in EC_IDX_WAIT answers the outstanding index-port write (R211). -/
theorem step_of_ecIdxWait {b : Byte} {r : Resp} (hs : s.sched = .portAnswer r :: rest) (hp : s.phase = .ecIdxWait)
    (ho : s.outstanding = some (.port .index b)) : step s = .next (indexRespond b r { s with sched := rest }) := by
  rw [step_of_sched hs]
  simp [act, envStep, portAnswer, hp, ho]

/-- BLOCK's move in EC_DAT issues the data-port write (R212). -/
theorem step_of_ecDat (hs : s.sched = .block :: rest) (hp : s.phase = .ecDat) :
    step s = .next (dataIssue { s with sched := rest }) := by
  rw [step_of_sched hs]
  simp [act, envStep, blockStep, hp]

/-- PORTT's move in EC_DAT_WAIT answers the outstanding data-port write (R213). -/
theorem step_of_ecDatWait {b : Byte} {r : Resp} (hs : s.sched = .portAnswer r :: rest) (hp : s.phase = .ecDatWait)
    (ho : s.outstanding = some (.port .data b)) : step s = .next (dataRespond b r { s with sched := rest }) := by
  rw [step_of_sched hs]
  simp [act, envStep, portAnswer, hp, ho]

/-- BLOCK's move in EC_SETTLE goes on once the settle delay has ended (R215). -/
theorem step_of_ecSettle (hs : s.sched = .block :: rest) (hp : s.phase = .ecSettle) :
    step s = .next (if s.settleCnt = 0 then settleAdvance { s with sched := rest } else { s with sched := rest }) := by
  rw [step_of_sched hs]
  simp [act, envStep, blockStep, hp]

/-- After a pair that is not the eighth the next one follows (R215). -/
theorem settleAdvance_of_lt (h : s.stepIx.toNat < 7) :
    settleAdvance s = { s with stepIx := s.stepIx + 1, phase := .ecIdx } :=
  if_pos h

/-- After the eighth pair the next sub-sequence follows (R216). -/
theorem settleAdvance_of_more (h : s.stepIx = 7) (hn : s.subseq.toNat + 1 < s.nsub.toNat) :
    settleAdvance s = nextSubseq s := by
  simp [settleAdvance, h, hn]

/-- After the eighth pair of the last sub-sequence the command is complete (R217). -/
theorem settleAdvance_of_last (h : s.stepIx = 7) (hn : s.nsub.toNat ≤ s.subseq.toNat + 1) :
    settleAdvance s = complete s := by
  simp [settleAdvance, h, not_lt.2 hn]

/-- An error ends the index-port write's command (R211, R218). -/
theorem indexRespond_of_error {r : Resp} (hr : r ≠ .ok) (b : Byte) :
    indexRespond b r s = fail 0 r (record (.portWrite .block .index b r) { s with outstanding := none }) :=
  if_neg hr

/-- An error ends the data-port write's command (R213, R218). -/
theorem dataRespond_of_error {r : Resp} (hr : r ≠ .ok) (b : Byte) :
    dataRespond b r s = fail 1 r (record (.portWrite .block .data b r) { s with outstanding := none }) :=
  if_neg hr

/-- A tick is recorded, reaches the EC, and counts the settle delay (R214). -/
theorem tickStep_eq (s : State) :
    ∃ c : BitVec 17, tickStep s = { s with history := .tick :: s.history, ec := s.ec.tick, settleCnt := c } ∧
      c.toNat = if s.phase = .ecSettle then s.settleCnt.toNat - 1 else s.settleCnt.toNat := by
  unfold tickStep settleTick
  split
  case isTrue hc =>
    obtain ⟨hp, h0⟩ : s.phase = .ecSettle ∧ 0 < s.settleCnt.toNat := hc
    refine ⟨s.settleCnt - 1, rfl, ?_⟩
    rw [if_pos hp]
    bv_omega
  case isFalse hc =>
    refine ⟨s.settleCnt, rfl, ?_⟩
    split
    case isTrue hp =>
      have h0 : ¬0 < s.settleCnt.toNat := fun h0 => hc ⟨hp, h0⟩
      omega
    case isFalse => rfl
end

end Sys2Proof.Machine
end

section
/-! SUPPORT. Two accounts that every step keeps: the ticks of the settle delay (spec/41_sequencer.md R213, R214, R220)
and the sequences that a running command goes through (R204 to R208, R216). -/

namespace Sys2Proof.Safety

open Sys2Proof.Machine

/-! The settle delay. -/

/-- A tick is taken from the settle counter or was not needed any more. -/
theorem SettleAccounted.tickStep {s : State} (h : SettleAccounted s) : SettleAccounted (tickStep s) := by
  obtain ⟨c, ht, hc⟩ := tickStep_eq s
  rw [ht]
  intro (hp : s.phase = .ecSettle)
  have hs : s.settleUs.toNat + 1 ≤ s.settleCnt.toNat + ticksSinceData s.history := h hp
  rw [if_pos hp] at hc
  simp only [ticksSinceData]
  omega

/-- Every move but the host's issue and a late answer keeps the account. -/
theorem SettleAccounted.moved {s t : State} {m : Move} (h : SettleAccounted s) (hl : ∀ k r, m ≠ .lateAnswer k r)
    (hm : Moved m s t) : SettleAccounted t := by
  cases hm with
  | stays => exact h
  | hidAnswered => unfold hidRespond; split <;> nofun
  | indexAnswered => unfold indexRespond; split <;> nofun
  | dataAnswered =>
    unfold dataRespond
    split
    · exact fun _ => (toNat_settleLoad s.settleUs).ge
    · nofun
  | ticked _ => exact h.tickStep
  | foreignWrote => exact h
  | hidOpened => exact h
  | ecOpened => exact h
  | lateHid k r _ hk _ => exact absurd hk (hl k r)
  | latePort k r _ _ hk _ => exact absurd hk (hl k r)
  | _ => nofun

/-- Every move but a late answer keeps the account: no command is accepted into EC_SETTLE. -/
theorem SettleAccounted.acted {s t : State} {m : Move} (h : SettleAccounted s) (hl : ∀ k r, m ≠ .lateAnswer k r)
    (ha : Acted m s t) : SettleAccounted t := by
  cases ha with
  | accepted w i t _ hp _ ha =>
    intro ht
    have hph := accepted_phase ha
    simp [ht, hp] at hph
  | rejected w r _ _ hd =>
    obtain he | ⟨-, he⟩ := rejectWord_cases hd (accept w s) <;> rw [he] <;> nofun
  | moved t hm => exact h.moved hl hm

/-- The block leaves EC_SETTLE for the next pair, or ends the command in success, only by its own step once the settle
counter is 0 (R215). -/
theorem leaves_settle {s t : State} {m : Move} (hp : s.phase = .ecSettle) (ha : Acted m s t)
    (ht : t.phase = .ecIdx ∨ t.status.done = true ∧ s.status.done = false) :
    s.settleCnt = 0 ∧ t.history = s.history := by
  cases ha with
  | accepted _ _ _ _ hi => simp [hp] at hi
  | rejected _ _ _ hi => simp [hp] at hi
  | moved t hm =>
    cases hm with
    | nextPair _ _ hc _ => exact ⟨hc, rfl⟩
    | nextSequence _ _ hc _ _ => exact ⟨hc, rfl⟩
    | completed _ _ hc _ _ => exact ⟨hc, rfl⟩
    | ticked _ =>
      obtain ⟨c, he, -⟩ := tickStep_eq s
      simp [he, hp] at ht
    | foreignWrote => simp [foreignStep, hp] at ht
    | wasReset _ => simp [resetStep, State.reset, Status.reset] at ht
    | _ => simp_all -- the move needs another phase, or leaves PHASE and DONE alone

/-! The sequences of the running command. -/

section
variable {s t : State}

/-- A meaning that starts an EC command starts the first sequence that the opcode names (R204 to R208). -/
theorem runsItsSequence_of_accepted {i : Instr} (hp : s.phase = .idle) (hop : s.status.lastOp = i.opcode)
    (ha : Accepted i s t) : RunsItsSequence t := by
  cases ha with
  | started n t v pt pv hargs =>
    intro _
    obtain ⟨ho, rfl⟩ | ⟨ho, rfl, rfl, hv⟩ | ⟨ho, rfl, rfl, hv⟩ | ⟨ho, rfl, rfl, rfl, rfl, rfl⟩ |
      ⟨ho, rfl, rfl, rfl, rfl, rfl⟩ := startArgs_cases hargs <;> rw [← hop] at ho
    · exact .inl ⟨ho, rfl, rfl, t, v, rfl⟩
    · exact .inr (.inl ⟨ho, rfl, rfl, v, hv, rfl⟩)
    · exact .inr (.inr (.inl ⟨ho, rfl, rfl, v, hv, rfl⟩))
    · exact .inr (.inr (.inr (.inl ⟨ho, rfl, rfl, rfl, rfl⟩)))
    · exact .inr (.inr (.inr (.inr ⟨ho, rfl, rfl, rfl, rfl⟩)))
  | built => exact fun h => by simp [hp, Phase.isEc] at h
  | settle => exact fun h => by simp [hp, Phase.isEc] at h
  | filled => exact fun h => by simp [hp, Phase.isEc] at h
  | _ => nofun

/-- The next sub-sequence of a composite is the second that its opcode names (R216, R222). -/
theorem RunsItsSequence.nextSubseq (h : RunsItsSequence s) (hp : s.phase = .ecSettle)
    (hn : s.subseq.toNat + 1 < s.nsub.toNat) : RunsItsSequence (nextSubseq s) := by
  intro _
  obtain ⟨-, h1, h0, -⟩ | ⟨-, h1, h0, -⟩ | ⟨-, h1, h0, -⟩ | ⟨ho, h2, ht, hv, -⟩ | ⟨ho, h2, ht, hv, -⟩ := h (hp ▸ rfl)
  · simp [h1, h0] at hn
  · simp [h1, h0] at hn
  · simp [h1, h0] at hn
  · exact .inr (.inr (.inr (.inl ⟨ho, h2, ht, hv, congrArg₂ buildSeq ht hv⟩)))
  · exact .inr (.inr (.inr (.inr ⟨ho, h2, ht, hv, congrArg₂ buildSeq ht hv⟩)))

/-- Every move but the host's issue keeps it. -/
theorem RunsItsSequence.moved {m : Move} (h : RunsItsSequence s) (hm : Moved m s t) : RunsItsSequence t := by
  cases hm with
  | hidIssued => nofun
  | hidAnswered => unfold hidRespond; split <;> nofun
  | indexIssued _ hp => exact fun _ => h (hp ▸ rfl)
  | indexAnswered b r _ hp _ =>
    unfold indexRespond
    split
    · exact fun _ => h (hp ▸ rfl)
    · nofun
  | dataIssued _ hp => exact fun _ => h (hp ▸ rfl)
  | dataAnswered b r _ hp _ =>
    unfold dataRespond
    split
    · exact fun _ => h (hp ▸ rfl)
    · nofun
  | nextPair _ hp _ _ => exact fun _ => h (hp ▸ rfl)
  | nextSequence _ hp _ _ hn => exact h.nextSubseq hp hn
  | completed => nofun
  | ticked _ =>
    obtain ⟨c, he, -⟩ := tickStep_eq s
    exact he ▸ h
  | wasReset => nofun
  | _ => exact h

/-- Every move keeps it: acceptance writes LAST_OP before the meaning runs. -/
theorem RunsItsSequence.acted {m : Move} (h : RunsItsSequence s) (ha : Acted m s t) : RunsItsSequence t := by
  cases ha with
  | accepted w i t _ hp hd ha =>
    exact runsItsSequence_of_accepted (s := Machine.accept w s) hp (opcode_of_decode hd).symm ha
  | rejected w r _ _ hd =>
    obtain he | ⟨-, he⟩ := rejectWord_cases hd (accept w s) <;> rw [he] <;> nofun
  | moved t hm => exact h.moved hm
end

end Sys2Proof.Safety
end

section
/-! The obligations of spec/41_sequencer.md about single steps. -/

namespace Sys2Proof.Settled

open Sys2Proof.Machine Sys2Proof.Safety

/-- Settles O51: the counter starts at SETTLE_US + 1, each tick taken from it is recorded, and BLOCK goes on at 0. -/
theorem settleDelayIsNeverShort : Obligations.SettleDelayIsNeverShort := by
  intro s s' h hl hstep
  obtain ⟨l, d, ha⟩ := exists_acted_of_step hstep
  refine ⟨SettleAccounted.acted (s := { s with sched := l, draws := d }) h hl ha, fun hp ht => ?_⟩
  obtain ⟨hc, hh⟩ := leaves_settle (s := { s with sched := l, draws := d }) hp ha ht
  have hs : s.settleUs.toNat + 1 ≤ s.settleCnt.toNat + ticksSinceData s.history := h hp
  rw [hh]
  simpa [show s.settleCnt = 0 from hc] using hs

/-- Settles O29: no form of an accepted command's next state writes one of these fields. -/
theorem commandsTouchNoDevice : Obligations.CommandsTouchNoDevice := by
  intro i s t h
  obtain ⟨t', ht, ha⟩ := exec_cases i s
  rw [h] at ht
  cases ht
  refine ⟨fun a => by rw [accepted_ec ha], accepted_ec ha, ?_⟩
  cases ha <;> exact ⟨rfl, rfl, rfl, rfl, rfl, rfl, rfl, rfl⟩

/-- Settles O23: `settleOk` is the floor of 1000. -/
theorem settleCommandRespectsTheFloor : Obligations.SettleCommandRespectsTheFloor :=
  fun _ _ => ⟨fun h => if_pos (decide_eq_true h), fun h => if_neg (by simpa [settleOk, Config.settleFloorUs] using h)⟩

/-- Settles O24: the pairs are those of `buildSeq`. -/
theorem ecBuildFillsSeq : Obligations.EcBuildFillsSeq :=
  fun _ _ _ => rfl

/-- Settles O25: the three commands come down to one start. -/
theorem singleSequenceCommandsStart : Obligations.SingleSequenceCommandsStart := by
  intro s ho i t v hi
  rw [exec_of_startArgs (startArgs_of_runsOne hi s)]
  exact congrArg _ (start_of_open s ho)

/-- Settles O26: a composite starts once PEND_T and PEND_V are written. -/
theorem compositeCommandsStart : Obligations.CompositeCommandsStart :=
  fun s ho =>
    ⟨congrArg _ (start_of_open { s with pendT := 0x41, pendV := 1 } ho),
      congrArg _ (start_of_open { s with pendT := 0x40, pendV := 1 } ho)⟩

/-- Settles O27: PEND_T and PEND_V are written before the port is looked at. -/
theorem closedPortRaisesDeviceNotFound : Obligations.ClosedPortRaisesDeviceNotFound := by
  intro s ho i hi
  have raised {n t v pt pv} (ha : startArgs i s = some (n, t, v, pt, pv)) :
      exec i s = .next (raise .deviceNotFound .ok { s with pendT := pt, pendV := pv }) :=
    (exec_of_startArgs ha).trans (congrArg _ (start_of_closed { s with pendT := pt, pendV := pv } ho))
  obtain ⟨t, v, rfl⟩ | ⟨m, rfl, hm⟩ | ⟨n, rfl, hn⟩ | rfl | rfl := hi
  · exact raised rfl
  · exact raised (if_pos hm)
  · exact raised (if_pos hn)
  · exact raised rfl
  · exact raised rfl

/-- Settles O28: the operand's check comes before the start. -/
theorem ecOperandsOutOfDomainRefused : Obligations.EcOperandsOutOfDomainRefused := by
  rintro s i (⟨m, rfl, hm⟩ | ⟨n, rfl, hn⟩)
  · exact if_neg (by simpa [ecmodeOk] using hm)
  · exact if_neg (by simpa [enabledOk] using hn)

/-- Settles O30: the pair in progress is SEQ[STEP]. -/
theorem blockIssuesIndexThenData : Obligations.BlockIssuesIndexThenData :=
  fun _ _ hs => ⟨fun hp => ⟨_, step_of_ecIdx hs hp⟩, fun hp => ⟨_, step_of_ecDat hs hp⟩⟩

/-- Settles O31: SETTLE_US + 1 fits the 17-bit counter, and too short a delay makes the EC forget. -/
theorem okAnswerMovesOn : Obligations.OkAnswerMovesOn := by
  intro s b rest hs
  refine ⟨fun hp ho => ⟨_, step_of_ecIdxWait hs hp ho⟩,
    fun hp ho => ⟨_, _, step_of_ecDatWait hs hp ho, toNat_settleLoad s.settleUs, fun hlt => ?_⟩⟩
  have hshort : s.settleUs.toNat < (s.ec.dataOk .block b).latencyUs := by simpa using hlt
  unfold settleMargin
  exact (if_pos hshort).symm ▸ ecUnknown_forget (s.ec.dataOk .block b)

/-- Settles O32: either port's failed write ends in `fail`, which makes the EC forget. -/
theorem failedWriteAbortsAndIsLocated : Obligations.FailedWriteAbortsAndIsLocated := by
  rintro s p b r rest hs hr ho (⟨hp, rfl⟩ | ⟨hp, rfl⟩)
  · exact ⟨_, (step_of_ecIdxWait hs hp ho).trans (congrArg _ (indexRespond_of_error hr b)), ecUnknown_forget s.ec, rfl⟩
  · exact ⟨_, (step_of_ecDatWait hs hp ho).trans (congrArg _ (dataRespond_of_error hr b)), ecUnknown_forget s.ec, rfl⟩

/-- Settles O33: the settle counter's part of the tick is the only one that the block sees. -/
theorem tickOnlyCountsTheSettleDelay : Obligations.TickOnlyCountsTheSettleDelay := by
  intro s rest hs
  obtain ⟨c, ht, hc⟩ := tickStep_eq { s with sched := rest }
  exact ⟨c, _, (step_of_sched hs).trans (congrArg _ ht), hc⟩

/-- Settles O34: at 0 the counter lets `settleAdvance` take one of its three ways. -/
theorem settleEndAdvances : Obligations.SettleEndAdvances := by
  intro s rest hs hp
  rw [step_of_ecSettle hs hp]
  refine ⟨fun hc => ?_, fun hc h7 => ?_, fun hc h7 hn => ?_, fun hc h7 hn => ?_⟩
  · rw [if_neg hc]
  · have hlt : s.stepIx.toNat < 7 := by bv_omega
    rw [if_pos hc, settleAdvance_of_lt (s := { s with sched := rest }) hlt]
  · rw [if_pos hc, settleAdvance_of_more (s := { s with sched := rest }) h7 hn]
    rfl
  · rw [if_pos hc, settleAdvance_of_last (s := { s with sched := rest }) h7 hn]
    exact ⟨_, _, _, _, rfl⟩

/-- Settles O49: acceptance starts the first sequence, and the pending operands are the second's. -/
theorem everyStepKeepsTheCommandsSequence : Obligations.EveryStepKeepsTheCommandsSequence := by
  intro s s' h hstep
  obtain ⟨l, d, ha⟩ := exists_acted_of_step hstep
  exact RunsItsSequence.acted (s := { s with sched := l, draws := d }) h ha

end Sys2Proof.Settled
end

section
/-! SUPPORT. Runs of an EC command on a schedule that answers every port write OK and gives each settle delay its ticks
(spec/70_reset_and_hazards.md R312). -/

namespace Sys2Proof.Machine

open Sys2Proof.Safety

/-! Runs. -/

theorem run_succ {n : Nat} {s u : State} (h : step s = .next u) : core.run (n + 1) s = core.run n u := by
  have hstep : core.step s = .next u := h
  simp only [Host.Core.run, hstep]

theorem run_add {m n : Nat} {s u : State} (h : core.run m s = .next u) : core.run (m + n) s = core.run n u := by
  induction m generalizing s with
  | zero =>
    cases h
    rw [Nat.zero_add]
  | succ m ih =>
    obtain ⟨w, hw, -⟩ := step_cases s
    rw [run_succ hw] at h
    rw [Nat.succ_add_eq_add_succ, Nat.add_succ, run_succ hw, ih h]

/-! The start of a command. -/

/-- The block when an EC command has started (R209). -/
def started (n : BitVec 2) (t v pt pv : Byte) (s : State) : State :=
  { s with
    pendT := pt, pendV := pv, seq := buildSeq t v, nsub := n, subseq := 0, stepIx := 0, phase := .ecIdx
    status := { s.status with seqValid := true, busy := true } }

/-- EC.MAXON and EC.MAXOFF hold their second sequence pending (R207, R208). -/
theorem startArgs_of_composite {i : Instr} (h : i = .ecMaxon ∨ i = .ecMaxoff) :
    ∃ t v pt pv, (∀ s, startArgs i s = some (2, t, v, pt, pv)) ∧ buildSeq t v = compositeSeq i.opcode 0 ∧
      buildSeq pt pv = compositeSeq i.opcode 1 := by
  obtain rfl | rfl := h
  · exact ⟨0x40, 2, 0x41, 1, fun _ => rfl, rfl, rfl⟩
  · exact ⟨0x41, 0, 0x40, 1, fun _ => rfl, rfl, rfl⟩

/-- What a command starts with does not depend on the schedule and on acceptance. -/
theorem startArgs_accept (i : Instr) (s : State) (w : CmdWord) (rest : List Move) :
    startArgs i (accept w { s with sched := rest }) = startArgs i s := by
  cases i <;> rfl

section
variable {i : Instr} {s : State} {n : BitVec 2} {t v pt pv : Byte} {rest : List Move}
  (hs : s.sched = .issue (encode i) :: rest) (hp : s.phase = .idle)
  (ha : startArgs i s = some (n, t, v, pt, pv))
include hs hp ha

theorem step_of_startArgs :
    step s = .next (start n t v { accept (encode i) { s with sched := rest } with pendT := pt, pendV := pv }) := by
  rw [step_of_issue hs hp, issueStep, Settled.decodeEncodeRoundTrip i]
  exact exec_of_startArgs ((startArgs_accept ..).trans ha)

theorem step_of_start (ho : s.ecOpen = true) :
    step s = .next (started n t v pt pv (accept (encode i) { s with sched := rest })) :=
  (step_of_startArgs hs hp ha).trans (congrArg _ (start_of_open _ ho))
end

/-! What a running command keeps. -/

/-- The block's state that a running EC command leaves alone until its sequence has ended. -/
structure Command where
  status : Status
  settleUs : Micros
  seq : Seq
  nsub : BitVec 2
  subseq : BitVec 1
  pendT : Byte
  pendV : Byte

/-- The command that a state runs. -/
def commandOf (s : State) : Command := ⟨s.status, s.settleUs, s.seq, s.nsub, s.subseq, s.pendT, s.pendV⟩

/-! Register writes that are answered OK. -/

theorem step_of_tick {s : State} {rest : List Move} (hs : s.sched = .tick :: rest) :
    step s = .next (tickStep { s with sched := rest }) :=
  step_of_sched hs

/-- Ticks in EC_SETTLE count the settle delay down. -/
theorem run_ticks {s : State} (hp : s.phase = .ecSettle) {n : Nat} {rest : List Move}
    (hs : s.sched = List.replicate n .tick ++ rest) :
    ∃ u, core.run n s = .next u ∧ commandOf u = commandOf s ∧ u.phase = .ecSettle ∧ u.stepIx = s.stepIx ∧
      u.settleCnt.toNat = s.settleCnt.toNat - n ∧ u.sched = rest := by
  induction n generalizing s with
  | zero => exact ⟨s, rfl, rfl, hp, rfl, rfl, hs⟩
  | succ n ih =>
    have hs : s.sched = .tick :: (List.replicate n .tick ++ rest) := hs
    obtain ⟨c, hc, hcn⟩ := tickStep_eq { s with sched := List.replicate n .tick ++ rest }
    obtain ⟨u, hu, hcu, hpu, hk, hcn', hsu⟩ := ih (s := { s with
      sched := List.replicate n .tick ++ rest, history := .tick :: s.history, ec := s.ec.tick, settleCnt := c }) hp rfl
    refine ⟨u, ?_, hcu, hpu, hk, ?_, hsu⟩
    · rw [run_succ (step_of_tick hs), hc, hu]
    · rw [hcn', hcn, if_pos hp, Nat.sub_sub, Nat.add_comm 1]

section
variable {s : State} {rest : List Move}

/-- The index-port write, answered OK, leads to the data-port write (R210, R211). -/
theorem run_indexWrite (hp : s.phase = .ecIdx) (hs : s.sched = .block :: .portAnswer .ok :: rest) :
    ∃ u, core.run 2 s = .next u ∧ commandOf u = commandOf s ∧ u.phase = .ecDat ∧ u.stepIx = s.stepIx ∧
      u.sched = rest := by
  rw [run_succ (step_of_ecIdx hs hp), run_succ (step_of_ecIdxWait rfl rfl rfl)]
  exact ⟨_, rfl, rfl, rfl, rfl, rfl⟩

/-- The data-port write, answered OK, leads to the settle delay (R212, R213). -/
theorem run_dataWrite (hp : s.phase = .ecDat) (hs : s.sched = .block :: .portAnswer .ok :: rest) :
    ∃ u, core.run 2 s = .next u ∧ commandOf u = commandOf s ∧ u.phase = .ecSettle ∧ u.stepIx = s.stepIx ∧
      u.settleCnt.toNat = s.settleUs.toNat + 1 ∧ u.sched = rest := by
  rw [run_succ (step_of_ecDat hs hp), run_succ (step_of_ecDatWait rfl rfl rfl)]
  exact ⟨_, rfl, rfl, rfl, rfl, toNat_settleLoad s.settleUs, rfl⟩

/-- One register write with its settle delay ends in `settleAdvance` (R210 to R215). -/
theorem run_pairMoves (hp : s.phase = .ecIdx) (hs : s.sched = pairMoves (s.settleUs.toNat + 1) ++ rest) :
    ∃ u, core.run (s.settleUs.toNat + 6) s = .next (settleAdvance u) ∧ commandOf u = commandOf s ∧
      u.stepIx = s.stepIx ∧ u.sched = rest := by
  generalize hn : s.settleUs.toNat + 1 = n at hs
  obtain ⟨x, hx, hcx, hpx, hkx, hsx⟩ := run_indexWrite hp hs
  obtain ⟨y, hy, hcy, hpy, hky, hny, hsy⟩ := run_dataWrite hpx hsx
  obtain ⟨z, hz, hcz, hpz, hkz, hnz, hsz⟩ := run_ticks (n := n) (rest := .block :: rest) hpy (by simpa using hsy)
  have hus : x.settleUs = s.settleUs := congrArg Command.settleUs hcx
  have h0 : z.settleCnt = 0 := BitVec.eq_of_toNat_eq (by simp [hnz, hny, hus, hn])
  have hlast : core.run 1 z = .next (settleAdvance { z with sched := rest }) := by
    rw [run_succ (step_of_ecSettle hsz hpz), if_pos h0]
    rfl
  refine ⟨{ z with sched := rest }, ?_, hcz.trans (hcy.trans hcx), hkz.trans (hky.trans hkx), rfl⟩
  rw [show s.settleUs.toNat + 6 = 2 + (2 + (n + 1)) by omega, run_add hx, run_add hy, run_add hz, hlast]
end

theorem sequenceMoves_succ (k n : Nat) : sequenceMoves (k + 1) n = pairMoves n ++ sequenceMoves k n := by
  simp [sequenceMoves, List.replicate_succ]

theorem sequenceMoves_add (j k n : Nat) : sequenceMoves (j + k) n = sequenceMoves j n ++ sequenceMoves k n := by
  rw [sequenceMoves, List.replicate_add, List.flatten_append]
  rfl

/-- Several register writes before the eighth. -/
theorem run_sequenceMoves {k : Nat} {s : State} (hp : s.phase = .ecIdx) (hk : s.stepIx.toNat + k ≤ 7)
    {rest : List Move} (hs : s.sched = sequenceMoves k (s.settleUs.toNat + 1) ++ rest) :
    ∃ u, core.run (k * (s.settleUs.toNat + 6)) s = .next u ∧ commandOf u = commandOf s ∧ u.phase = .ecIdx ∧
      u.stepIx.toNat = s.stepIx.toNat + k ∧ u.sched = rest := by
  induction k generalizing s with
  | zero => exact ⟨s, by rw [Nat.zero_mul]; rfl, rfl, hp, rfl, hs⟩
  | succ k ih =>
    rw [sequenceMoves_succ, List.append_assoc] at hs
    obtain ⟨w, hw, hcw, hkw, hsw⟩ := run_pairMoves hp hs
    have hlt : w.stepIx.toNat < 7 := by rw [hkw]; omega
    rw [settleAdvance_of_lt hlt] at hw
    have hus : w.settleUs = s.settleUs := congrArg Command.settleUs hcw
    have hnext : (w.stepIx + 1).toNat = s.stepIx.toNat + 1 := by rw [← hkw]; bv_omega
    obtain ⟨u, hu, hcu, hpu, hku, hsu⟩ := ih (s := { w with stepIx := w.stepIx + 1, phase := .ecIdx }) rfl
      (by simp only [hnext]; omega) (by simpa only [hus] using hsw)
    refine ⟨u, ?_, hcu.trans hcw, hpu, by rw [hku, hnext]; omega, hsu⟩
    rw [Nat.succ_mul, Nat.add_comm, run_add hw, ← hus, hu]

/-- A whole sequence ends in `settleAdvance` after its eighth pair. -/
theorem run_sequence {s : State} (hp : s.phase = .ecIdx) (h0 : s.stepIx = 0) {rest : List Move}
    (hs : s.sched = sequenceMoves 8 (s.settleUs.toNat + 1) ++ rest) :
    ∃ u, core.run (8 * (s.settleUs.toNat + 6)) s = .next (settleAdvance u) ∧ commandOf u = commandOf s ∧
      u.stepIx = 7 ∧ u.sched = rest := by
  rw [sequenceMoves_add 7 1, List.append_assoc] at hs
  obtain ⟨w, hw, hcw, hpw, hkw, hsw⟩ := run_sequenceMoves hp (by simp [h0]) hs
  have hus : w.settleUs = s.settleUs := congrArg Command.settleUs hcw
  rw [sequenceMoves_succ, ← hus] at hsw
  obtain ⟨u, hu, hcu, hku, hsu⟩ := run_pairMoves hpw (by simpa [sequenceMoves] using hsw)
  refine ⟨u, ?_, hcu.trans hcw, ?_, hsu⟩
  · rw [show 8 * (s.settleUs.toNat + 6) = 7 * (s.settleUs.toNat + 6) + (s.settleUs.toNat + 6) by omega, run_add hw,
      ← hus, hu]
  · rw [hku]
    exact BitVec.eq_of_toNat_eq (by simp [hkw, h0])

/-- From acceptance to the end of the first sequence. -/
theorem run_first_sequence {i : Instr} {s : State} {n : BitVec 2} {t v pt pv : Byte} {rest : List Move}
    (hs : s.sched = .issue (encode i) :: (sequenceMoves 8 (s.settleUs.toNat + 1) ++ rest)) (hp : s.phase = .idle)
    (ho : s.ecOpen = true) (ha : startArgs i s = some (n, t, v, pt, pv)) :
    ∃ u, core.run (8 * (s.settleUs.toNat + 6) + 1) s = .next (settleAdvance u) ∧
      commandOf u = commandOf (started n t v pt pv (accept (encode i) s)) ∧ u.stepIx = 7 ∧ u.sched = rest := by
  obtain ⟨u, hu, hc, hk, hsu⟩ := run_sequence (s := started n t v pt pv
    (accept (encode i) { s with sched := sequenceMoves 8 (s.settleUs.toNat + 1) ++ rest })) rfl rfl rfl
  exact ⟨u, (run_succ (step_of_start hs hp ha ho)).trans hu, hc, hk, hsu⟩

end Sys2Proof.Machine
end

section
/-! The obligations of spec/41_sequencer.md about a whole command. -/

namespace Sys2Proof.Settled

open Sys2Proof.Machine Sys2Proof.Safety

/-- Settles O55: one sequence is made, and with NSUB at 1 its end completes the command. -/
theorem singleSequencesCompleteInTheirSteps : Obligations.SingleSequencesCompleteInTheirSteps := by
  intro s i t v rest hi hp ho hs
  obtain ⟨u, hu, hc, hk, hsu⟩ := run_first_sequence hs hp ho (startArgs_of_runsOne hi s)
  have hlast : settleAdvance u = complete u :=
    settleAdvance_of_last hk (by rw [show u.nsub = 1 from congrArg Command.nsub hc]; exact Nat.le_add_left ..)
  refine ⟨complete u, ?_, hsu, rfl, rfl, rfl, congrArg (Status.err ∘ Command.status) hc, congrArg Command.seq hc⟩
  rw [← hlast, ← hu]
  congr 1
  omega

/-- Settles O56: the first sequence leads to the second, and with NSUB at 2 that one's end completes the command. -/
theorem compositesCompleteInTheirSteps : Obligations.CompositesCompleteInTheirSteps := by
  intro s i rest hi hp ho hs
  rw [sequenceMoves_add 8 8, List.append_assoc] at hs
  obtain ⟨t, v, pt, pv, ha, -, hq⟩ := startArgs_of_composite hi
  obtain ⟨u, hu, hc, hk, hsu⟩ := run_first_sequence hs hp ho (ha s)
  have hn : u.nsub = 2 := congrArg Command.nsub hc
  have hx : u.subseq = 0 := congrArg Command.subseq hc
  have hus : u.settleUs = s.settleUs := congrArg Command.settleUs hc
  rw [settleAdvance_of_more hk (by simp [hn, hx])] at hu
  obtain ⟨w, hw, hcw, hkw, hsw⟩ := run_sequence (s := nextSubseq u) rfl rfl (by simpa [hus] using hsu)
  have hlast : settleAdvance w = complete w :=
    settleAdvance_of_last hkw (by
      rw [show w.nsub = u.nsub from congrArg Command.nsub hcw, show w.subseq = 1 from congrArg Command.subseq hcw, hn]
      rfl)
  have herr : w.status.err = u.status.err := congrArg (Status.err ∘ Command.status) hcw
  have hseq : w.seq = buildSeq u.pendT u.pendV := congrArg Command.seq hcw
  refine ⟨complete w, ?_, hsw, rfl, rfl, rfl, herr.trans (congrArg (Status.err ∘ Command.status) hc), ?_⟩
  · rw [← hlast, ← hw, nextSubseq_settleUs, hus, ← run_add hu]
    congr 1
    omega
  · rw [← hq, complete_seq, hseq]
    exact congrArg₂ buildSeq (congrArg Command.pendT hc) (congrArg Command.pendV hc)

end Sys2Proof.Settled
end

section
/-! SUPPORT. The EC while the block sends one sequence on quiet moves (spec/20_memory.md R79, R80): one operation of the
EC at a time, and what the end of the sequence leaves known. -/

namespace Sys2Proof.Machine

/-! A settled EC and ticks. -/

/-- Ticks only count where the EC is settled: nothing that it was given changes EC_RAM (R80). -/
theorem tick_of_settled {e : Ec} (h : e.settled = true) : e.tick = e.count 1 := by
  cases hi : e.inProgress with
  | false =>
    have hw : e.triggered = false := by simp [Ec.triggered, ((inProgress_eq_false e).1 hi).1]
    exact tick_of_waiting (.inl hw)
  | true =>
    obtain ⟨-, -, hc, hs⟩ := (settled_iff_of_inProgress hi).1 h
    have hends : (e.count 1).deliveryEnds = e.count 1 := by
      have hs : (e.count 1).stale = false := hs
      simp [Ec.deliveryEnds, exactDelivery_of_uncycled hc, hc, hs]
    rw [tick_eq, hends, ite_self]

theorem count_settled {e : Ec} (h : e.settled = true) (n : Nat) : (e.count n).settled = true := by
  cases hi : e.inProgress with
  | false => exact settled_of_idle hi
  | true =>
    obtain ⟨hh, hg, hcs⟩ := (settled_iff_of_inProgress hi).1 h
    exact (settled_iff_of_inProgress (e := e.count n) hi).2 ⟨hh, hg.trans (Nat.le_add_right _ n), hcs⟩

section
variable {e : Ec} (h : e.settled = true) (n : Nat)
include h

theorem iterate_tick_of_settled : Ec.tick^[n] e = e.count n := by
  induction n with
  | zero => rfl
  | succ n ih =>
    rw [Function.iterate_succ_apply', ih, tick_of_settled (count_settled h n)]
    rfl

/-- So what is known of EC_RAM stays so. -/
theorem iterate_tick_known_of_settled (a : Byte) : (Ec.tick^[n] e).known a = e.known a := by
  rw [iterate_tick_of_settled h, known_of_settled h, known_of_settled (count_settled h n)]
  rfl
end

/-! The register writes of the block. -/

/-- From the EC `e₀` the block has made the register writes `ps` and no more than `half` of the next, and none of them
has had its effect. Where `e₀` is settled EC_RAM is as it was, and no cycle of the latch came before `ps`. -/
structure Underway (e₀ : Ec) (ps : List Pair) (half : Half) (e : Ec) : Prop where
  owner : e.owner = .block
  half : e.half = half
  latency : e.latencyUs = e₀.latencyUs
  pairs : ∃ before, e.pairs = ps.reverse ++ before ∧ (e₀.settled = true → latchCycled before = false)
  ram : e₀.settled = true → e.ram = e₀.ram

/-- The first index-port write is issued, after any ticks. -/
theorem underway_issueIndex (e₀ : Ec) (n : Nat) :
    Underway e₀ [] .indexIssued ((Ec.tick^[n] e₀).issueIndex .block) where
  owner := rfl
  half := rfl
  latency := by simp
  pairs := ⟨_, rfl, fun h =>
    (issueIndex_of_settled (iterate_tick_of_settled h n ▸ count_settled h n) .block).2⟩
  ram h := by
    rw [iterate_tick_of_settled h, (issueIndex_of_settled (count_settled h n) .block).1]
    rfl

section
variable {e₀ e : Ec} {ps : List Pair} {i : Byte}

theorem Underway.count {half : Half} (h : Underway e₀ ps half e) (n : Nat) : Underway e₀ ps half (e.count n) :=
  { h with }

/-- A tick that ends no delivery only counts. -/
theorem Underway.tick {half : Half} (h : Underway e₀ ps half e) (ht : e.triggered = false) :
    Underway e₀ ps half e.tick :=
  tick_of_waiting (.inl ht) ▸ h.count 1

/-- In the middle of a register write no delivery ends. -/
theorem Underway.triggered_of_half {half : Half} (h : Underway e₀ ps half e) (hh : half ≠ .none) :
    e.triggered = false := by
  simp [Ec.triggered, h.half, hh]

theorem Underway.triggered {p : Pair} (h : Underway e₀ (ps ++ [p]) .none e) :
    e.triggered = true ↔ p = triggerPair := by
  obtain ⟨before, hb, -⟩ := h.pairs
  simp [Ec.triggered, h.half, hb]

/-- After the gap the next register write begins (R77). -/
theorem Underway.issueIndex (h : Underway e₀ ps .none e) (hg : e.latencyUs + 1 ≤ e.ticks) :
    Underway e₀ ps .indexIssued (e.issueIndex .block) := by
  rw [issueIndex_of_ready h.half (.inr ⟨h.owner, hg⟩)]
  exact { h with owner := rfl, half := rfl }

theorem Underway.indexOk (h : Underway e₀ ps .indexIssued e) (b : Byte) :
    Underway e₀ ps (.indexDone b) (e.indexOk .block b) := by
  rw [Ec.indexOk, if_pos ⟨h.half, h.owner⟩]
  exact { h with half := rfl }

theorem Underway.issueData (h : Underway e₀ ps (.indexDone i) e) :
    Underway e₀ ps (.dataIssued i) (e.issueData .block) := by
  have he : e.issueData .block = { e with half := .dataIssued i } := by simp [Ec.issueData, h.half, h.owner]
  exact he ▸ { h with half := rfl }

/-- The data-port write completes the register write, and the gap begins. -/
theorem Underway.dataOk (h : Underway e₀ ps (.dataIssued i) e) (b : Byte) :
    Underway e₀ (ps ++ [⟨i, b⟩]) .none (e.dataOk .block b) ∧ (e.dataOk .block b).ticks = 0 := by
  have he : e.dataOk .block b = e.pairDone ⟨i, b⟩ := by simp [Ec.dataOk, h.half, h.owner]
  obtain ⟨before, hb, hc⟩ := h.pairs
  rw [he]
  exact ⟨{ h with half := rfl, pairs := ⟨before, by simp [Ec.pairDone, hb], hc⟩ }, rfl⟩
end

/-! The end of the sequence. -/

/-- What the sequence (t, v) leaves from the EC `e₀`: EC_RAM[t] = v, and where `e₀` was settled every other byte (R79). -/
structure Committed (e₀ : Ec) (t v : Byte) (e : Ec) : Prop where
  settled : e.settled = true
  latency : e.latencyUs = e₀.latencyUs
  target : e.known t = some v
  others : e₀.settled = true → ∀ a, a ≠ t → e.known a = e₀.known a

theorem Committed.iterate_tick {e₀ e : Ec} {t v : Byte} (h : Committed e₀ t v e) (n : Nat) :
    Committed e₀ t v (Ec.tick^[n] e) where
  settled := iterate_tick_of_settled h.settled n ▸ count_settled h.settled n
  latency := (iterate_tick_latencyUs n e).trans h.latency
  target := (iterate_tick_known_of_settled h.settled n t).trans h.target
  others hs a ha := (iterate_tick_known_of_settled h.settled n a).trans (h.others hs a ha)

/-- Two sequences one after the other leave both their bytes. -/
theorem Committed.both {e₀ e e' : Ec} {t v t' v' : Byte} (h : Committed e₀ t v e) (h' : Committed e t' v' e')
    (hne : t ≠ t') :
    e'.known t = some v ∧ e'.known t' = some v' ∧
      (e₀.settled = true → ∀ a, a ≠ t → a ≠ t' → e'.known a = e₀.known a) :=
  ⟨(h'.others h.settled t hne).trans h.target, h'.target,
    fun hs a ha ha' => (h'.others h.settled a ha').trans (h.others hs a ha)⟩

section
variable {e₀ e : Ec} {t v : Byte}

/-- The trigger write ends the register writes of `buildSeq`. -/
theorem Underway.pairs_of_all (h : Underway e₀ (buildSeq t v).toList .none e) :
    ∃ before, e.pairs = triggerPair :: ((buildSeq t v).toList.dropLast.reverse ++ before) ∧
      (e₀.settled = true → latchCycled before = false) := by
  obtain ⟨before, hb, hc⟩ := h.pairs
  refine ⟨before, ?_, hc⟩
  rw [hb, buildSeq_eq_append_trigger]
  simp

theorem Underway.triggered_of_all (h : Underway e₀ (buildSeq t v).toList .none e) : e.triggered = true := by
  obtain ⟨before, hb, -⟩ := h.pairs_of_all
  simp [Ec.triggered, h.half, hb]

theorem Underway.deliveryEnds (h : Underway e₀ (buildSeq t v).toList .none e) :
    Committed e₀ t v e.deliveryEnds := by
  obtain ⟨before, hb, hc⟩ := h.pairs_of_all
  have he : e.deliveryEnds = e.commit t v := by simp [Ec.deliveryEnds, hb, exactDelivery_buildSeq]
  have hs : (e.commit t v).settled = true :=
    settled_of_idle ((inProgress_eq_false _).2 ⟨rfl, commit_half e t v h.half⟩)
  have hdrop : e.pairs.drop 8 = before := by rw [hb]; rfl
  rw [he]
  refine ⟨hs, (commit_latencyUs e t v).trans h.latency, commit_known e t v h.half, fun h₀ a ha => ?_⟩
  rw [known_of_settled hs, commit_ram_of_uncycled e t v (hdrop ▸ hc h₀), Memory.read_write_other _ _ _ _ ha, h.ram h₀,
    known_of_settled h₀]
end

/-- Before a register write: none is made and only ticks have come, or the last one's gap has passed. -/
def Between (e₀ : Ec) (ps : List Pair) (e : Ec) : Prop :=
  (ps = [] ∧ ∃ n, e = Ec.tick^[n] e₀) ∨
    (Underway e₀ ps .none e ∧ e.latencyUs + 1 ≤ e.ticks ∧ e.triggered = false)

/-- After a register write, with at least `gap` ticks since: its effect is still to come, or is that of the whole
sequence (t, v). -/
def Settling (e₀ : Ec) (t v : Byte) (ps : List Pair) (gap : Nat) (e : Ec) : Prop :=
  (Underway e₀ ps .none e ∧ gap ≤ e.ticks ∧
      (e.triggered = true → ps = (buildSeq t v).toList ∧ e.ticks ≤ e.latencyUs)) ∨
    (ps = (buildSeq t v).toList ∧ Committed e₀ t v e)

section
variable {e₀ e : Ec} {t v : Byte} {ps : List Pair} {gap : Nat}

theorem Between.tick (h : Between e₀ ps e) : Between e₀ ps e.tick := by
  obtain ⟨hps, n, rfl⟩ | ⟨hu, hg, ht⟩ := h
  · exact .inl ⟨hps, n + 1, (Function.iterate_succ_apply' ..).symm⟩
  · rw [tick_of_waiting (.inl ht)]
    exact .inr ⟨hu.count 1, Nat.le_succ_of_le hg, ht⟩

theorem Between.issueIndex (h : Between e₀ ps e) : Underway e₀ ps .indexIssued (e.issueIndex .block) := by
  obtain ⟨rfl, n, rfl⟩ | ⟨hu, hg, -⟩ := h
  · exact underway_issueIndex e₀ n
  · exact hu.issueIndex hg

/-- A tick widens the gap, or is the one that commits the sequence. -/
theorem Settling.tick (h : Settling e₀ t v ps gap e) {gap' : Nat} (hg' : gap' ≤ gap + 1) :
    Settling e₀ t v ps gap' e.tick := by
  obtain ⟨hu, hg, ht⟩ | ⟨hps, hc⟩ := h
  · by_cases hend : e.triggered = true ∧ e.latencyUs ≤ e.ticks
    · obtain ⟨rfl, -⟩ := ht hend.1
      rw [tick_eq, if_pos hend]
      exact .inr ⟨rfl, (hu.count 1).deliveryEnds⟩
    · rw [tick_eq, if_neg hend]
      refine .inl ⟨hu.count 1, hg'.trans (Nat.succ_le_succ hg), fun h' => ⟨(ht h').1, ?_⟩⟩
      exact not_le.1 fun hl => hend ⟨h', hl⟩
  · exact .inr ⟨hps, hc.iterate_tick 1⟩

/-- After the gap the sequence is committed. -/
theorem Settling.committed (h : Settling e₀ t v (buildSeq t v).toList gap e) (hg : e₀.latencyUs < gap) :
    Committed e₀ t v e := by
  obtain ⟨hu, hge, ht⟩ | ⟨-, hc⟩ := h
  · obtain ⟨-, hle⟩ := ht hu.triggered_of_all
    rw [hu.latency] at hle
    omega
  · exact hc

/-- After the gap the next register write may begin. -/
theorem Settling.between (h : Settling e₀ t v ps gap e) (hg : e₀.latencyUs < gap)
    (hps : ps ≠ (buildSeq t v).toList) : Between e₀ ps e := by
  obtain ⟨hu, hge, ht⟩ | ⟨hps', -⟩ := h
  · have hw : e.triggered = false := Bool.eq_false_iff.2 fun h' => hps (ht h').1
    refine .inr ⟨hu, ?_, hw⟩
    rw [hu.latency]
    omega
  · exact absurd hps' hps
end

end Sys2Proof.Machine
end

section
/-! SUPPORT. The block while it sends one sequence on quiet moves (spec/41_sequencer.md R210 to R222): what the history
and the EC hold in each phase, and how a run goes on from the sequence's start to its end. -/

namespace Sys2Proof.Machine

open Sys2Proof.Safety

/-! Quiet moves. -/

/-- No move but the host's issue changes the schedule. -/
theorem moved_sched {m : Move} {s t : State} (h : Moved m s t) : t.sched = s.sched := by
  cases h with
  | hidAnswered => unfold hidRespond; split <;> rfl
  | indexAnswered => unfold indexRespond; split <;> rfl
  | dataAnswered => unfold dataRespond; split <;> rfl
  | ticked _ =>
    obtain ⟨c, he, -⟩ := tickStep_eq s
    rw [he]
  | _ => rfl

theorem act_of_quiet {m : Move} (hq : quiet m = true) (s : State) : act m s = .next (envStep m s) := by
  cases m with
  | issue w => cases hq
  | _ => rfl

/-- A step of a quiet schedule. -/
theorem exists_moved_of_quiet {s : State} {m : Move} {l : List Move} (hs : s.sched = m :: l) (hq : quiet m = true) :
    ∃ u, step s = .next u ∧ Moved m { s with sched := l } u ∧ u.sched = l := by
  have hm := envStep_cases m { s with sched := l }
  exact ⟨_, (step_of_sched hs).trans (act_of_quiet hq _), hm, moved_sched hm⟩

/-! An idle block. -/

/-- From `s` only ticks have reached the EC, and the idle block's answer and its port writes are as they were. -/
structure Rests (s u : State) : Prop where
  phase : u.phase = .idle
  status : u.status = s.status
  writes : blockWrites u.history = blockWrites s.history
  ec : ∃ n, u.ec = Ec.tick^[n] s.ec

/-- A quiet move wakes no idle block. -/
theorem Rests.moved {s u w : State} (h : Rests s u) {m : Move} (hq : quiet m = true) (hm : Moved m u w) :
    Rests s w := by
  have hp := h.phase
  cases hm with
  | stays => exact h
  | ticked _ =>
    obtain ⟨c, he, -⟩ := tickStep_eq u
    obtain ⟨n, hn⟩ := h.ec
    rw [he]
    exact { h with ec := ⟨n + 1, by rw [Function.iterate_succ_apply', ← hn]⟩ }
  | hidOpened => exact { h with }
  | ecOpened => exact { h with }
  | foreignWrote _ _ _ hm => simp [hm, quiet] at hq
  | lateHid _ _ _ hm => simp [hm, quiet] at hq
  | latePort _ _ _ _ hm => simp [hm, quiet] at hq
  | wasReset hm => simp [hm, quiet] at hq
  | _ => simp_all -- the move needs a busy phase

/-- So a quiet run leaves the idle block at rest. -/
theorem rests_of_run {ms rest : List Move} (hq : ∀ m ∈ ms, quiet m = true) {s u s' : State} (h : Rests s u)
    (hs : u.sched = ms ++ rest) (hr : core.run ms.length u = .next s') : Rests s s' := by
  induction ms generalizing u with
  | nil =>
    cases hr
    exact h
  | cons m ms ih =>
    obtain ⟨w, hw, hm, hsw⟩ := exists_moved_of_quiet hs (hq m List.mem_cons_self)
    have hu : Rests s { u with sched := ms ++ rest } := { h with }
    exact ih (fun m' h' => hq m' (List.mem_cons_of_mem m h')) (hu.moved (hq m List.mem_cons_self) hm) hsw
      ((run_succ hw).symm.trans hr)

/-! A block that sends. -/

/-- The pairs of the sequence before the one in progress. -/
def madePairs (s : State) : List Pair := s.seq.toList.take s.stepIx.toNat

/-- The block's port writes since the history `l₀` are `ws`, in order. -/
def Sent (l₀ l : List Event) (ws : List (Port × Byte × Resp)) : Prop := blockWrites l = ws.reverse ++ blockWrites l₀

/-- SETTLE_US covers EC_LATENCY_US (R304). -/
def Covered (s : State) : Prop := s.ec.latencyUs ≤ s.settleUs.toNat

/-- How far the sequence (t, v) that began in `s₀` has come, by PHASE: the answered port writes, the one that is
outstanding, and the EC where the settle delay covers its latency. -/
def Stage (t v : Byte) (s₀ s : State) : Prop :=
  match s.phase with
  | .ecIdx =>
    Sent s₀.history s.history (okWrites (madePairs s)) ∧ (Covered s₀ → Between s₀.ec (madePairs s) s.ec)
  | .ecIdxWait =>
    s.outstanding = some (.port .index (currentPair s).index) ∧
      Sent s₀.history s.history (okWrites (madePairs s)) ∧
      (Covered s₀ → Underway s₀.ec (madePairs s) .indexIssued s.ec)
  | .ecDat =>
    Sent s₀.history s.history (okWrites (madePairs s) ++ [(.index, (currentPair s).index, .ok)]) ∧
      (Covered s₀ → Underway s₀.ec (madePairs s) (.indexDone (currentPair s).index) s.ec)
  | .ecDatWait =>
    s.outstanding = some (.port .data (currentPair s).value) ∧
      Sent s₀.history s.history (okWrites (madePairs s) ++ [(.index, (currentPair s).index, .ok)]) ∧
      (Covered s₀ → Underway s₀.ec (madePairs s) (.dataIssued (currentPair s).index) s.ec)
  | .ecSettle =>
    Sent s₀.history s.history (okWrites (madePairs s ++ [currentPair s])) ∧
      (Covered s₀ → Settling s₀.ec t v (madePairs s ++ [currentPair s])
        (s₀.settleUs.toNat + 1 - s.settleCnt.toNat) s.ec)
  | .idle => False
  | .hidReq => False
  | .hidWait => False

/-- The block sends the sequence (t, v) that began in `s₀`. -/
structure Sending (t v : Byte) (s₀ s : State) : Prop where
  command : commandOf s = commandOf s₀
  seq : s₀.seq = buildSeq t v
  stage : Stage t v s₀ s

theorem Sent.write {l₀ l : List Event} {ws : List (Port × Byte × Resp)} (h : Sent l₀ l ws) (p : Port) (b : Byte)
    (r : Resp) : Sent l₀ (.portWrite .block p b r :: l) (ws ++ [(p, b, r)]) := by
  rw [Sent, List.reverse_append, List.append_assoc, ← h]
  rfl

theorem Sent.trans {l₀ l l' : List Event} {ws ws' : List (Port × Byte × Resp)} (h : Sent l₀ l ws)
    (h' : Sent l l' ws') : Sent l₀ l' (ws ++ ws') := by
  rw [Sent, h', h, List.reverse_append, List.append_assoc]

theorem okWrites_append (ps qs : List Pair) : okWrites (ps ++ qs) = okWrites ps ++ okWrites qs :=
  List.flatMap_append

theorem okWrites_concat (ps : List Pair) (p : Pair) :
    okWrites (ps ++ [p]) = okWrites ps ++ [(.index, p.index, .ok)] ++ [(.data, p.value, .ok)] := by
  simp [okWrites]

section
variable {s : State}

theorem madePairs_concat : madePairs s ++ [currentPair s] = s.seq.toList.take (s.stepIx.toNat + 1) := by
  have h : s.stepIx.toNat < s.seq.toList.length := by simpa using s.stepIx.isLt
  rw [madePairs, ← List.take_append_getElem h]
  rfl

theorem madePairs_nextPair (h : s.stepIx.toNat < 7) :
    madePairs { s with stepIx := s.stepIx + 1, phase := .ecIdx } = madePairs s ++ [currentPair s] := by
  have hk : (s.stepIx + 1).toNat = s.stepIx.toNat + 1 := by bv_omega
  rw [madePairs_concat, ← hk]
  rfl

/-- With the eighth pair the sequence is whole. -/
theorem madePairs_eighth (h : s.stepIx.toNat = 7) : madePairs s ++ [currentPair s] = s.seq.toList := by
  rw [madePairs_concat, h]
  exact List.take_of_length_le (by simp)

/-- Before it it is not. -/
theorem madePairs_ne (h : s.stepIx.toNat < 7) : madePairs s ++ [currentPair s] ≠ s.seq.toList := by
  rw [madePairs_concat]
  intro he
  have hl := congrArg List.length he
  simp at hl
  omega

/-- The trigger write is the eighth pair. -/
theorem stepIx_of_trigger {t v : Byte} (hq : s.seq = buildSeq t v) (h : currentPair s = triggerPair) :
    s.stepIx.toNat = 7 := by
  have hlt := s.stepIx.isLt
  by_contra hne
  have hk : s.stepIx.toNat < s.seq.toList.dropLast.length := by simp; omega
  have hm : s.seq.toList.dropLast[s.stepIx.toNat] = currentPair s := by rw [List.getElem_dropLast]; rfl
  refine triggerPair_notMem_dropLast_buildSeq t v ?_
  rw [← hq, ← h, ← hm]
  exact List.getElem_mem hk
end

/-- A settle delay that covers EC_LATENCY_US costs the EC nothing (R304). -/
theorem dataRespond_ok_ec {s : State} {b : Byte} (hl : s.ec.latencyUs ≤ s.settleUs.toNat) :
    (dataRespond b .ok s).ec = s.ec.dataOk .block b :=
  if_neg (not_lt.2 (by simpa using hl))

theorem sending_start {t v : Byte} {s : State} (hp : s.phase = .ecIdx) (h0 : s.stepIx = 0)
    (hq : s.seq = buildSeq t v) : Sending t v s s where
  command := rfl
  seq := hq
  stage := by
    have hm : madePairs s = [] := by simp [madePairs, h0]
    simp only [Stage, hp, hm]
    exact ⟨rfl, fun _ => .inl ⟨rfl, 0, rfl⟩⟩

section
variable {t v : Byte} {s₀ s : State} (h : Sending t v s₀ s)
include h

theorem Sending.seq_eq : s.seq = buildSeq t v := (congrArg Command.seq h.command).trans h.seq

theorem Sending.indexIssue (hp : s.phase = .ecIdx) : Sending t v s₀ (indexIssue s) := by
  have hs := h.stage
  simp only [Stage, hp] at hs
  obtain ⟨hw, hb⟩ := hs
  exact { h with stage := ⟨rfl, hw, fun hc => (hb hc).issueIndex⟩ }

theorem Sending.indexOk (hp : s.phase = .ecIdxWait) {b : Byte} (ho : s.outstanding = some (.port .index b)) :
    Sending t v s₀ (indexRespond b .ok s) := by
  have hs := h.stage
  simp only [Stage, hp, ho] at hs
  obtain ⟨hb, hw, hu⟩ := hs
  cases hb
  exact { h with stage := ⟨hw.write .index _ .ok, fun hc => (hu hc).indexOk _⟩ }

theorem Sending.dataIssue (hp : s.phase = .ecDat) : Sending t v s₀ (dataIssue s) := by
  have hs := h.stage
  simp only [Stage, hp] at hs
  obtain ⟨hw, hu⟩ := hs
  exact { h with stage := ⟨rfl, hw, fun hc => (hu hc).issueData⟩ }

theorem Sending.dataOk (hp : s.phase = .ecDatWait) {b : Byte} (ho : s.outstanding = some (.port .data b)) :
    Sending t v s₀ (dataRespond b .ok s) := by
  have hs := h.stage
  simp only [Stage, hp, ho] at hs
  obtain ⟨hb, hw, hu⟩ := hs
  cases hb
  refine { h with stage := ⟨?_, fun hc => ?_⟩ }
  · exact okWrites_concat .. ▸ hw.write .data _ .ok
  · obtain ⟨hd, h0⟩ := (hu hc).dataOk (currentPair s).value
    have hus : s.settleUs = s₀.settleUs := congrArg Command.settleUs h.command
    have hl : s.ec.latencyUs ≤ s.settleUs.toNat := by
      rw [(hu hc).latency, hus]
      exact hc
    have hn : s₀.settleUs.toNat + 1 - (s.settleUs.setWidth 17 + 1).toNat = 0 := by
      rw [toNat_settleLoad, hus, Nat.sub_self]
    rw [dataRespond_ok_ec hl]
    refine .inl ⟨hd, hn.trans_le (Nat.zero_le _), fun ht => ⟨?_, h0.trans_le (Nat.zero_le _)⟩⟩
    have h7 := stepIx_of_trigger h.seq_eq (hd.triggered.1 ht)
    exact (madePairs_eighth h7).trans (congrArg Vector.toList h.seq_eq)

theorem Sending.nextPair (hp : s.phase = .ecSettle) (hc : s.settleCnt = 0) (hk : s.stepIx.toNat < 7) :
    Sending t v s₀ { s with stepIx := s.stepIx + 1, phase := .ecIdx } := by
  have hs := h.stage
  simp only [Stage, hp, hc] at hs
  obtain ⟨hw, hu⟩ := hs
  refine { h with stage := ?_ }
  simp only [Stage, madePairs_nextPair hk]
  refine ⟨hw, fun hc => (hu hc).between ?_ (h.seq_eq ▸ madePairs_ne hk)⟩
  exact Nat.lt_succ_of_le hc

theorem Sending.tickStep : Sending t v s₀ (tickStep s) := by
  obtain ⟨c, he, hc⟩ := tickStep_eq s
  have hs := h.stage
  rw [he]
  refine { h with stage := ?_ }
  cases hp : s.phase <;> simp only [Stage, hp] at hs ⊢
  case ecIdx =>
    obtain ⟨hw, hb⟩ := hs
    exact ⟨hw, fun hc => (hb hc).tick⟩
  case ecIdxWait =>
    obtain ⟨ho, hw, hu⟩ := hs
    exact ⟨ho, hw, fun hc => (hu hc).tick ((hu hc).triggered_of_half nofun)⟩
  case ecDat =>
    obtain ⟨hw, hu⟩ := hs
    exact ⟨hw, fun hc => (hu hc).tick ((hu hc).triggered_of_half nofun)⟩
  case ecDatWait =>
    obtain ⟨ho, hw, hu⟩ := hs
    exact ⟨ho, hw, fun hc => (hu hc).tick ((hu hc).triggered_of_half nofun)⟩
  case ecSettle =>
    obtain ⟨hw, hu⟩ := hs
    rw [if_pos hp] at hc
    exact ⟨hw, fun hcov => (hu hcov).tick (by omega)⟩

/-- At the end of the sequence the history has its port writes, and the EC its effect. -/
theorem Sending.sent (hp : s.phase = .ecSettle) (hc : s.settleCnt = 0) (hk : s.stepIx = 7) :
    Sent s₀.history s.history (okWrites (buildSeq t v).toList) ∧ (Covered s₀ → Committed s₀.ec t v s.ec) := by
  have hall : madePairs s ++ [currentPair s] = (buildSeq t v).toList :=
    (madePairs_eighth (by simp [hk])).trans (congrArg Vector.toList h.seq_eq)
  have hs := h.stage
  simp only [Stage, hp, hc, hall] at hs
  obtain ⟨hw, hu⟩ := hs
  exact ⟨hw, fun hcov => (hu hcov).committed (Nat.lt_succ_of_le hcov)⟩

/-- A quiet move goes on with the sequence, or fails a port write, or is BLOCK's at the end of the sequence. -/
theorem Sending.moved {u : State} {m : Move} (hq : quiet m = true) (hm : Moved m s u) :
    Sending t v s₀ u ∨ (u.phase = .idle ∧ u.status.done = false) ∨
      (s.phase = .ecSettle ∧ s.settleCnt = 0 ∧ s.stepIx = 7 ∧ u = settleAdvance s) := by
  cases hm with
  | stays => exact .inl h
  | hidIssued _ hp => exact absurd h.stage (by simp [Stage, hp])
  | hidAnswered _ _ _ hp _ => exact absurd h.stage (by simp [Stage, hp])
  | indexIssued _ hp => exact .inl (h.indexIssue hp)
  | indexAnswered b r _ hp ho =>
    by_cases hr : r = .ok
    · exact .inl (hr ▸ h.indexOk hp ho)
    · exact .inr (.inl (indexRespond_of_error hr b ▸ ⟨rfl, rfl⟩))
  | dataIssued _ hp => exact .inl (h.dataIssue hp)
  | dataAnswered b r _ hp ho =>
    by_cases hr : r = .ok
    · exact .inl (hr ▸ h.dataOk hp ho)
    · exact .inr (.inl (dataRespond_of_error hr b ▸ ⟨rfl, rfl⟩))
  | nextPair _ hp hc hk => exact .inl (h.nextPair hp hc hk)
  | nextSequence _ hp hc hk hn =>
    have h7 : s.stepIx = 7 := BitVec.eq_of_toNat_eq hk
    exact .inr (.inr ⟨hp, hc, h7, (settleAdvance_of_more h7 hn).symm⟩)
  | completed _ hp hc hk hn =>
    have h7 : s.stepIx = 7 := BitVec.eq_of_toNat_eq hk
    exact .inr (.inr ⟨hp, hc, h7, (settleAdvance_of_last h7 hn).symm⟩)
  | ticked _ => exact .inl h.tickStep
  | foreignWrote _ _ _ hm => simp [hm, quiet] at hq
  | lateHid _ _ _ hm => simp [hm, quiet] at hq
  | latePort _ _ _ _ hm => simp [hm, quiet] at hq
  | hidOpened _ _ => exact .inl { h with }
  | ecOpened _ _ => exact .inl { h with }
  | wasReset hm => simp [hm, quiet] at hq
end

/-- The sequence (t, v) that began in `s₀` has ended in `s`: its port writes are made and it is committed. -/
structure SequenceEnded (t v : Byte) (s₀ s : State) : Prop where
  command : commandOf s = commandOf s₀
  stepIx : s.stepIx = 7
  sent : Sent s₀.history s.history (okWrites (buildSeq t v).toList)
  committed : Covered s₀ → Committed s₀.ec t v s.ec

/-- A quiet run that ends with DONE goes through the end of the sequence it is in. -/
theorem exists_sequence_end {t v : Byte} {s₀ : State} (hd : s₀.status.done = false) {ms rest : List Move}
    (hq : ∀ m ∈ ms, quiet m = true) {s s' : State} (h : Sending t v s₀ s) (hs : s.sched = ms ++ rest)
    (hr : core.run ms.length s = .next s') (hd' : s'.status.done = true) :
    ∃ k u, SequenceEnded t v s₀ u ∧ k ≤ ms.length ∧ core.run k s = .next (settleAdvance u) ∧ ∃ ms₂ : List Move,
      (∀ m ∈ ms₂, quiet m = true) ∧ u.sched = ms₂ ++ rest ∧
        core.run ms₂.length (settleAdvance u) = .next s' := by
  induction ms generalizing s with
  | nil =>
    cases hr
    have hst : s'.status = s₀.status := congrArg Command.status h.command
    rw [hst, hd] at hd'
    cases hd'
  | cons m ms ih =>
    have hq' : ∀ m ∈ ms, quiet m = true := fun m' h' => hq m' (List.mem_cons_of_mem m h')
    obtain ⟨w, hw, hm, hsw⟩ := exists_moved_of_quiet hs (hq m List.mem_cons_self)
    have hrw : core.run ms.length w = .next s' := (run_succ hw).symm.trans hr
    have hu : Sending t v s₀ { s with sched := ms ++ rest } := { h with }
    obtain hgo | ⟨hp, hdw⟩ | ⟨hp, hc, hk, rfl⟩ := hu.moved (hq m List.mem_cons_self) hm
    · obtain ⟨k, u, hend, hk, hru, hrest⟩ := ih hq' hgo hsw hrw
      exact ⟨k + 1, u, hend, Nat.succ_le_succ hk, (run_succ hw).trans hru, hrest⟩
    · have hrest := rests_of_run hq' (s := w) ⟨hp, rfl, rfl, 0, rfl⟩ hsw hrw
      rw [hrest.status, hdw] at hd'
      cases hd'
    · obtain ⟨hsent, hcom⟩ := hu.sent hp hc hk
      exact ⟨1, _, ⟨hu.command, hk, hsent, hcom⟩, Nat.le_add_left 1 _, run_succ hw, ms, hq', rfl, hrw⟩

/-! Whole commands. -/

section
variable {i : Instr} {s s' : State} {n : BitVec 2} {t v pt pv : Byte} {ms rest : List Move}
  (ha : startArgs i s = some (n, t, v, pt, pv)) (hp : s.phase = .idle) (hq : ∀ m ∈ ms, quiet m = true)
  (hs : s.sched = .issue (encode i) :: (ms ++ rest)) (hr : core.run (ms.length + 1) s = .next s')
  (hd : s'.status.done = true)
include ha hp hq hs hr hd

/-- An EC command that ends with DONE has started, and goes through the end of its first sequence. -/
theorem exists_first_sequence_end :
    ∃ k u, SequenceEnded t v (started n t v pt pv (accept (encode i) s)) u ∧ k ≤ ms.length + 1 ∧
      core.run k s = .next (settleAdvance u) ∧ ∃ ms₂ : List Move,
        (∀ m ∈ ms₂, quiet m = true) ∧ u.sched = ms₂ ++ rest ∧
          core.run ms₂.length (settleAdvance u) = .next s' := by
  cases ho : s.ecOpen with
  | true =>
    have hstep := step_of_start hs hp ha ho
    rw [run_succ hstep] at hr
    obtain ⟨k, u, hend, hk, hru, hrest⟩ :=
      exists_sequence_end rfl hq (sending_start (t := t) (v := v) rfl rfl rfl) rfl hr hd
    exact ⟨k + 1, u, { hend with }, Nat.succ_le_succ hk, (run_succ hstep).trans hru, hrest⟩
  | false =>
    have hstep := (step_of_startArgs hs hp ha).trans (congrArg _ (start_of_closed _ ho))
    rw [run_succ hstep] at hr
    have hrest := rests_of_run hq ⟨rfl, rfl, rfl, 0, rfl⟩ rfl hr
    rw [hrest.status] at hd
    cases hd

/-- A command of one sequence is complete at its end. -/
theorem sent_and_committed_of_single (hn : n = 1) :
    Sent s.history s'.history (okWrites (buildSeq t v).toList) ∧ (Covered s → Committed s.ec t v s'.ec) := by
  obtain ⟨k, u, hend, -, -, ms₂, hq₂, hs₂, hr₂⟩ := exists_first_sequence_end ha hp hq hs hr hd
  have hu : u.nsub = 1 := (congrArg Command.nsub hend.command).trans hn
  rw [settleAdvance_of_last hend.stepIx (by rw [hu]; exact Nat.le_add_left ..)] at hr₂
  have hrest : Rests (complete u) s' := rests_of_run hq₂ ⟨rfl, rfl, rfl, 0, rfl⟩ hs₂ hr₂
  obtain ⟨j, hj⟩ := hrest.ec
  exact ⟨hrest.writes.trans hend.sent, fun hc => hj ▸ (hend.committed hc).iterate_tick j⟩

/-- A composite goes on to its second sequence, and is complete at the end of that one. -/
theorem sent_and_committed_of_composite (hn : n = 2) :
    Sent s.history s'.history (okWrites ((buildSeq t v).toList ++ (buildSeq pt pv).toList)) ∧
      ∃ k u, k ≤ ms.length + 1 ∧ core.run k s = .next u ∧
        Sent s.history u.history (okWrites (buildSeq t v).toList) ∧
        (Covered s → Committed s.ec t v u.ec ∧ Committed u.ec pt pv s'.ec) := by
  obtain ⟨k, u, hend, hk, hru, ms₂, hq₂, hs₂, hr₂⟩ := exists_first_sequence_end ha hp hq hs hr hd
  have hu : u.nsub = 2 := (congrArg Command.nsub hend.command).trans hn
  have hx : u.subseq = 0 := congrArg Command.subseq hend.command
  have hdu : u.status.done = false := congrArg (Status.done ∘ Command.status) hend.command
  have hus : u.settleUs = s.settleUs := congrArg Command.settleUs hend.command
  have hseq : buildSeq u.pendT u.pendV = buildSeq pt pv :=
    congrArg₂ buildSeq (congrArg Command.pendT hend.command) (congrArg Command.pendV hend.command)
  rw [settleAdvance_of_more hend.stepIx (by simp [hu, hx])] at hru hr₂
  obtain ⟨-, w, hend₂, -, -, ms₃, hq₃, hs₃, hr₃⟩ :=
    exists_sequence_end (s₀ := nextSubseq u) (s := nextSubseq u) hdu hq₂ (sending_start rfl rfl hseq) hs₂ hr₂ hd
  have hw : w.nsub = u.nsub := congrArg Command.nsub hend₂.command
  have hxw : w.subseq = 1 := congrArg Command.subseq hend₂.command
  rw [settleAdvance_of_last hend₂.stepIx (by rw [hw, hxw, hu]; rfl)] at hr₃
  have hrest : Rests (complete w) s' := rests_of_run hq₃ ⟨rfl, rfl, rfl, 0, rfl⟩ hs₃ hr₃
  obtain ⟨j, hj⟩ := hrest.ec
  have hboth : Sent s.history w.history (okWrites ((buildSeq t v).toList ++ (buildSeq pt pv).toList)) :=
    okWrites_append .. ▸ Sent.trans hend.sent hend₂.sent
  refine ⟨hrest.writes.trans hboth, k, nextSubseq u, hk, hru, hend.sent, fun hc => ?_⟩
  have h₁ : Committed s.ec t v u.ec := hend.committed hc
  have hc₂ : Covered (nextSubseq u) := by
    rw [Covered, nextSubseq_ec, nextSubseq_settleUs, h₁.latency, hus]
    exact hc
  exact ⟨h₁, hj ▸ (hend₂.committed hc₂).iterate_tick j⟩
end

end Sys2Proof.Machine
end

section
/-! The obligations of spec/41_sequencer.md about what a completed command has done. -/

namespace Sys2Proof.Settled

open Sys2Proof.Machine Sys2Proof.Safety

/-- Settles O57: only the answer OK leads on from a port write, and only the eighth pair's end to DONE. -/
theorem completedExecMadeItsSixteenWrites : Obligations.CompletedExecMadeItsSixteenWrites := by
  intro s s' t v ms rest hp hq hs hr hd
  exact (sent_and_committed_of_single (startArgs_of_runsOne (.inl rfl) s) hp hq hs hr hd rfl).1

/-- Settles O58: the settle counter of the eighth pair reaches 0 after the tick that commits the sequence. -/
theorem completedSequenceSetsEcRam : Obligations.CompletedSequenceSetsEcRam := by
  intro s s' i t v ms rest hi hp hq hl hs hr hd
  have hc := (sent_and_committed_of_single (startArgs_of_runsOne hi s) hp hq hs hr hd rfl).2 hl
  exact ⟨hc.target, hc.others⟩

/-- Settles O59: the first sequence's end is the second's start, at an EC that is settled. -/
theorem completedCompositeSetsBothRegisters : Obligations.CompletedCompositeSetsBothRegisters := by
  intro s s' i ms rest hi hp hq hs hr hd
  obtain rfl | rfl := hi
  · obtain ⟨hw, k, u, hk, hu, hsent, hc⟩ :=
      sent_and_committed_of_composite (t := 0x40) (v := 2) (pt := 0x41) (pv := 1) rfl hp hq hs hr hd rfl
    refine ⟨hw, fun hl => ?_⟩
    obtain ⟨h₁, h₂⟩ := hc hl
    obtain ⟨hperf, hfan, hothers⟩ := h₁.both h₂ (by decide)
    exact ⟨fun _ => ⟨hperf, hfan⟩, nofun, ⟨k, u, hk, hu, hsent, h₁.target⟩, hothers⟩
  · obtain ⟨hw, k, u, hk, hu, hsent, hc⟩ :=
      sent_and_committed_of_composite (t := 0x41) (v := 0) (pt := 0x40) (pv := 1) rfl hp hq hs hr hd rfl
    refine ⟨hw, fun hl => ?_⟩
    obtain ⟨h₁, h₂⟩ := hc hl
    obtain ⟨hfan, hperf, hothers⟩ := h₁.both h₂ (by decide)
    exact ⟨nofun, fun _ => ⟨hfan, hperf⟩, ⟨k, u, hk, hu, hsent, h₁.target⟩,
      fun h₀ a hp hf => hothers h₀ a hf hp⟩

end Sys2Proof.Settled
end

section
/-! SUPPORT. The answer to every accepted command (spec/60_exceptions.md R272): each meaning of a command, and each move
that ends one, shows DONE or an error or leaves the block busy. -/

namespace Sys2Proof.Safety

open Sys2Proof.Machine

section
variable {s t : State}

/-- A meaning of a command sets DONE, raises an error or makes the block busy. -/
theorem answersEveryCommand_of_accepted {i : Instr} (ha : Accepted i s t) : AnswersEveryCommand t := by
  cases ha with
  | built => exact fun _ hd => nomatch hd
  | settle => exact fun _ hd => nomatch hd
  | filled => exact fun _ hd => nomatch hd
  | notBuilt => exact fun _ _ he => nomatch he
  | invalid => exact fun _ _ he => nomatch he
  | notFound => exact fun _ _ he => nomatch he
  | sending => exact fun hp => nomatch hp
  | started => exact fun hp => nomatch hp

/-- A word that is no command raises an error (R111, R133). -/
theorem answersEveryCommand_of_rejected {w : CmdWord} {r : DecodeReject} (hd : decode w = .error r) (s : State) :
    AnswersEveryCommand (rejectWord r s) := by
  obtain he | ⟨-, he⟩ := rejectWord_cases hd s <;> rw [he] <;> exact fun _ _ hn => nomatch hn

/-- Every move but the host's issue keeps it: a running command goes on or is answered, a reset begins the history
anew, and no other move records an acceptance or takes back an answer. -/
theorem AnswersEveryCommand.moved {m : Move} (h : AnswersEveryCommand s) (hm : Moved m s t) :
    AnswersEveryCommand t := by
  cases hm with
  | hidIssued => nofun
  | hidAnswered => unfold hidRespond; split <;> nofun
  | indexIssued => nofun
  | indexAnswered => unfold indexRespond; split <;> nofun
  | dataIssued => nofun
  | dataAnswered => unfold dataRespond; split <;> nofun
  | nextPair => nofun
  | nextSequence => nofun
  | completed => nofun
  | ticked _ =>
    obtain ⟨c, he, -⟩ := tickStep_eq s
    exact he ▸ h
  | wasReset => exact fun _ _ _ => rfl
  | _ => exact h

/-- Every move keeps it. -/
theorem AnswersEveryCommand.acted {m : Move} (h : AnswersEveryCommand s) (ha : Acted m s t) :
    AnswersEveryCommand t := by
  cases ha with
  | accepted w i t _ _ _ ha => exact answersEveryCommand_of_accepted ha
  | rejected w r _ _ hd => exact answersEveryCommand_of_rejected hd (accept w s)
  | moved t hm => exact h.moved hm
end

end Sys2Proof.Safety
end

section
/-! The obligations of spec/60_exceptions.md. -/

namespace Sys2Proof.Settled

open Sys2Proof.Machine Sys2Proof.Safety

/-- Settles O50: acceptance and the end of a command show an answer; the clauses of `Inv` are not needed. -/
theorem everyCommandIsAnswered : Obligations.EveryCommandIsAnswered := by
  intro s s' _ h hstep
  obtain ⟨l, d, ha⟩ := exists_acted_of_step hstep
  exact AnswersEveryCommand.acted (s := { s with sched := l, draws := d }) h ha

/-- Settles O46: the move of the step answers a state, whether the host's word is accepted or another agent acts. -/
theorem everyStepAnswersAState : Obligations.EveryStepAnswersAState := by
  intro s
  obtain ⟨t, ht, -⟩ := step_cases s
  exact ⟨t, ht⟩

end Sys2Proof.Settled
end

section
/-! SUPPORT. The way of a busy block to its end (spec/70_reset_and_hazards.md R312): every move the block waits for
lowers `distance`, and no quiet move raises it. -/

namespace Sys2Proof.Safety

open Sys2Proof.Machine

section
variable {s t : State}

theorem distance_of_idle (hp : s.phase = .idle) : distance s = 0 := by
  simp [distance, hp]

theorem distance_pos (hp : s.phase ≠ .idle) : 0 < distance s := by
  cases h : s.phase with
  | idle => exact absurd h hp
  | _ => simp [distance, h, phaseRank]

/-- Whatever ends a command brings the block to its end. -/
theorem distance_lt_of_ended (hp : s.phase ≠ .idle) (ht : t.phase = .idle) : distance t < distance s :=
  distance_of_idle ht ▸ distance_pos hp

/-- The register writes of the running command that follow the one in progress. -/
def pairsToCome (s : State) : Nat := (s.nsub.toNat - 1 - s.subseq.toNat) * 8 + (7 - s.stepIx.toNat)

/-- Before its settle delay a register write has the whole delay still to come. -/
theorem distance_of_writing (hp : s.phase.isEc = true) (hs : s.phase ≠ .ecSettle) :
    distance s = pairsToCome s * (s.settleUs.toNat + 6) + phaseRank s.phase + (s.settleUs.toNat + 1) := by
  cases h : s.phase <;> simp_all [distance, Phase.isEc, pairsToCome]

theorem distance_of_settle (hp : s.phase = .ecSettle) :
    distance s = pairsToCome s * (s.settleUs.toNat + 6) + 1 + s.settleCnt.toNat := by
  simp [distance, hp, phaseRank, pairsToCome]

/-! The moves that a phase waits for. -/

theorem distance_hidIssue_lt (hp : s.phase = .hidReq) : distance (hidIssue s) < distance s := by
  simp [distance, hp, hidIssue]

theorem distance_hidRespond_lt (hp : s.phase = .hidWait) (f : Frame) (r : Resp) :
    distance (hidRespond f r s) < distance s := by
  refine distance_lt_of_ended (by simp [hp]) ?_
  unfold hidRespond
  split <;> rfl

/-- Each phase of a register write before its settle delay ranks above the next. -/
theorem distance_lt_of_rank (hs : s.phase.isEc = true) (hs' : s.phase ≠ .ecSettle) (ht : t.phase.isEc = true)
    (ht' : t.phase ≠ .ecSettle) (hc : pairsToCome t = pairsToCome s) (hu : t.settleUs = s.settleUs)
    (hr : phaseRank t.phase < phaseRank s.phase) : distance t < distance s := by
  rw [distance_of_writing hs hs', distance_of_writing ht ht', hc, hu]
  omega

theorem distance_indexIssue_lt (hp : s.phase = .ecIdx) : distance (indexIssue s) < distance s :=
  distance_lt_of_rank (hp ▸ rfl) (by simp [hp]) rfl nofun rfl rfl (by simp [hp, indexIssue, phaseRank])

theorem distance_dataIssue_lt (hp : s.phase = .ecDat) : distance (dataIssue s) < distance s :=
  distance_lt_of_rank (hp ▸ rfl) (by simp [hp]) rfl nofun rfl rfl (by simp [hp, dataIssue, phaseRank])

theorem distance_indexRespond_lt (hp : s.phase = .ecIdxWait) (b : Byte) (r : Resp) :
    distance (indexRespond b r s) < distance s := by
  unfold indexRespond
  split
  · exact distance_lt_of_rank (hp ▸ rfl) (by simp [hp]) rfl nofun rfl rfl (by simp [hp, phaseRank])
  · exact distance_lt_of_ended (by simp [hp]) rfl

/-- The answer OK starts the settle delay at the length that `distance` has counted for it (R213). -/
theorem distance_dataRespond_lt (hp : s.phase = .ecDatWait) (b : Byte) (r : Resp) :
    distance (dataRespond b r s) < distance s := by
  unfold dataRespond
  split
  · rw [distance_of_settle rfl, distance_of_writing (s := s) (hp ▸ rfl) (by simp [hp]), hp]
    change pairsToCome s * (s.settleUs.toNat + 6) + 1 + (s.settleUs.setWidth 17 + 1).toNat <
      pairsToCome s * (s.settleUs.toNat + 6) + 2 + (s.settleUs.toNat + 1)
    rw [toNat_settleLoad]
    omega
  · exact distance_lt_of_ended (by simp [hp]) rfl

/-- With one register write less to come, the next one is all that lies ahead of the end of a settle delay. -/
theorem distance_lt_of_nextWrite (hp : s.phase = .ecSettle) (ht : t.phase = .ecIdx) (hu : t.settleUs = s.settleUs)
    (hc : pairsToCome t + 1 = pairsToCome s) : distance t < distance s := by
  rw [distance_of_settle hp, distance_of_writing (ht ▸ rfl) (by simp [ht]), ht, hu, ← hc, Nat.add_one_mul]
  simp only [phaseRank]
  omega

theorem distance_nextPair_lt (hp : s.phase = .ecSettle) (hk : s.stepIx.toNat < 7) :
    distance { s with stepIx := s.stepIx + 1, phase := .ecIdx } < distance s := by
  refine distance_lt_of_nextWrite hp rfl rfl ?_
  have hstep : (s.stepIx + 1).toNat = s.stepIx.toNat + 1 := by bv_omega
  simp only [pairsToCome, hstep]
  omega

/-- The second sequence starts where its eight register writes were counted (R216). -/
theorem distance_nextSubseq_lt (h : Inv s) (hp : s.phase = .ecSettle) (hk : s.stepIx.toNat = 7)
    (hn : s.subseq.toNat + 1 < s.nsub.toNat) : distance (nextSubseq s) < distance s := by
  refine distance_lt_of_nextWrite hp rfl rfl ?_
  have hnsub : s.nsub.toNat ≤ 2 := by
    obtain hs | hs := (h.sequencing (hp ▸ rfl)).nsub <;> simp [hs]
  change (s.nsub.toNat - 1 - 1) * 8 + (7 - 0) + 1 = _
  simp only [pairsToCome, hk]
  omega

theorem distance_complete_lt (hp : s.phase = .ecSettle) : distance (complete s) < distance s :=
  distance_lt_of_ended (by simp [hp]) rfl

/-- The end of a settle delay leads on, whichever way (R215). -/
theorem distance_settleAdvance_lt (h : Inv s) (hp : s.phase = .ecSettle) :
    distance (settleAdvance s) < distance s := by
  unfold settleAdvance
  split
  case isTrue hk => exact distance_nextPair_lt hp hk
  case isFalse hk =>
    have h7 : s.stepIx.toNat = 7 := by bv_omega
    split
    case isTrue hn => exact distance_nextSubseq_lt h hp h7 hn
    case isFalse => exact distance_complete_lt hp

/-- A tick counts a settle delay that runs (R214). -/
theorem distance_tickStep_of_settle (hp : s.phase = .ecSettle) :
    distance (tickStep s) = pairsToCome s * (s.settleUs.toNat + 6) + 1 + (s.settleCnt.toNat - 1) := by
  obtain ⟨c, he, hc⟩ := tickStep_eq s
  rw [if_pos hp] at hc
  have ht : (tickStep s).phase = .ecSettle := he ▸ hp
  rw [distance_of_settle ht, he, ← hc]
  rfl

/-- In any other phase `distance` does not speak of the settle counter. -/
theorem distance_tickStep_of_not_settle (hp : s.phase ≠ .ecSettle) : distance (tickStep s) = distance s := by
  obtain ⟨c, he, -⟩ := tickStep_eq s
  rw [he]
  cases h : s.phase with
  | ecSettle => exact absurd h hp
  | _ => simp [distance, h]

theorem distance_tickStep_le (s : State) : distance (tickStep s) ≤ distance s := by
  by_cases hp : s.phase = .ecSettle
  · rw [distance_tickStep_of_settle hp, distance_of_settle hp]
    omega
  · exact (distance_tickStep_of_not_settle hp).le

theorem distance_tickStep_lt (hp : s.phase = .ecSettle) (h0 : s.settleCnt ≠ 0) :
    distance (tickStep s) < distance s := by
  have hpos : 0 < s.settleCnt.toNat := by bv_omega
  rw [distance_tickStep_of_settle hp, distance_of_settle hp]
  omega

/-! Any quiet move, and one that leads on. -/

theorem distance_le_of_moved {m : Move} (h : Inv s) (hq : quiet m = true) (hm : Moved m s t) :
    distance t ≤ distance s := by
  cases hm with
  | stays => exact le_rfl
  | hidIssued _ hp => exact (distance_hidIssue_lt hp).le
  | hidAnswered f r _ hp _ => exact (distance_hidRespond_lt hp f r).le
  | indexIssued _ hp => exact (distance_indexIssue_lt hp).le
  | indexAnswered b r _ hp _ => exact (distance_indexRespond_lt hp b r).le
  | dataIssued _ hp => exact (distance_dataIssue_lt hp).le
  | dataAnswered b r _ hp _ => exact (distance_dataRespond_lt hp b r).le
  | nextPair _ hp _ hk => exact (distance_nextPair_lt hp hk).le
  | nextSequence _ hp _ hk hn => exact (distance_nextSubseq_lt h hp hk hn).le
  | completed _ hp => exact (distance_complete_lt hp).le
  | ticked _ => exact distance_tickStep_le s
  | hidOpened => exact le_rfl
  | ecOpened => exact le_rfl
  | foreignWrote _ _ _ hm => simp [hm, quiet] at hq
  | lateHid _ _ _ hm => simp [hm, quiet] at hq
  | latePort _ _ _ _ hm => simp [hm, quiet] at hq
  | wasReset hm => simp [hm, quiet] at hq

/-- In every busy phase the move it waits for is quiet: a block step, an answer or a tick (R315). The invariant gives an
answer its request. -/
theorem exists_quiet_distance_lt (h : Inv s) (hb : s.phase ≠ .idle) :
    ∃ m, quiet m = true ∧ distance (envStep m s) < distance s := by
  have ho := h.outstanding
  cases hp : s.phase with
  | idle => exact absurd hp hb
  | hidReq =>
    have he : envStep .block s = hidIssue s := by simp [envStep, blockStep, hp]
    exact ⟨.block, rfl, he ▸ distance_hidIssue_lt hp⟩
  | hidWait =>
    have he : envStep (.hidAnswer .ok) s = hidRespond s.frame .ok s := by
      simp [envStep, hidAnswer, hp, ho, requestOf]
    exact ⟨.hidAnswer .ok, rfl, he ▸ distance_hidRespond_lt hp _ _⟩
  | ecIdx =>
    have he : envStep .block s = indexIssue s := by simp [envStep, blockStep, hp]
    exact ⟨.block, rfl, he ▸ distance_indexIssue_lt hp⟩
  | ecIdxWait =>
    have he : envStep (.portAnswer .ok) s = indexRespond (currentPair s).index .ok s := by
      simp [envStep, portAnswer, hp, ho, requestOf]
    exact ⟨.portAnswer .ok, rfl, he ▸ distance_indexRespond_lt hp _ _⟩
  | ecDat =>
    have he : envStep .block s = dataIssue s := by simp [envStep, blockStep, hp]
    exact ⟨.block, rfl, he ▸ distance_dataIssue_lt hp⟩
  | ecDatWait =>
    have he : envStep (.portAnswer .ok) s = dataRespond (currentPair s).value .ok s := by
      simp [envStep, portAnswer, hp, ho, requestOf]
    exact ⟨.portAnswer .ok, rfl, he ▸ distance_dataRespond_lt hp _ _⟩
  | ecSettle =>
    by_cases hc : s.settleCnt = 0
    · have he : envStep .block s = settleAdvance s := by simp [envStep, blockStep, hp, hc]
      exact ⟨.block, rfl, he ▸ distance_settleAdvance_lt h hp⟩
    · exact ⟨.tick, rfl, distance_tickStep_lt hp hc⟩

end

end Sys2Proof.Safety
end

section
/-! The obligations of spec/70_reset_and_hazards.md. -/

namespace Sys2Proof.Settled

open Sys2Proof.Machine Sys2Proof.Safety

/-- Settles O54: `distance` counts the moves that a busy block waits for. -/
theorem busyBlockCanAlwaysProgress : Obligations.BusyBlockCanAlwaysProgress := by
  intro s h hb
  constructor
  · intro m s' hq hact
    rw [act_of_quiet hq] at hact
    cases hact
    exact distance_le_of_moved h hq (envStep_cases m s)
  · obtain ⟨m, hq, hd⟩ := exists_quiet_distance_lt h hb
    exact ⟨m, envStep m s, hq, act_of_quiet hq s, hd⟩

/-- Settles O39: the reset input makes the EC forget everything but its latency. -/
theorem resetInputResetsTheBlock : Obligations.ResetInputResetsTheBlock := by
  intro s rest hs
  exact ⟨s.ec.forget, ecUnknown_forget s.ec, forget_latencyUs s.ec, step_of_sched hs⟩

/-- Settles O40: the answer to a HidWrite leaves the EC as it is, the answer to a port write makes it unknown. -/
theorem lateAnswerIsOnlyRecorded : Obligations.LateAnswerIsOnlyRecorded := by
  intro s k resp rest q hs hq
  rw [step_of_sched hs]
  cases q with
  | hid f => exact ⟨s.ec, by simp [act, envStep, lateStep, hq, record]⟩
  | port p b => exact ⟨s.ec.forget, by simp [act, envStep, lateStep, hq, record]⟩

end Sys2Proof.Settled
end
